-- ==== Sys2Proof/Word.lean ====
section
/-! DEFINITION. The unsigned words of the block (00_scope.md R10) and its 16-byte frames (R12, 10_state.md R49). -/
namespace Sys2Proof

/-- u8. -/
abbrev Byte := BitVec 8

/-- u16. -/
abbrev Half := BitVec 16

/-- u32: command words, edge words, timestamps, response data. -/
abbrev Word := BitVec 32

/-- Bytes 0 to 14 of a RadioFrame: everything before the checksum byte (44_frames.md R230). -/
abbrev Payload := Vector Byte 15

/-- A RadioFrame: 16 bytes, byte 0 first on the wire (20_memory.md R62). -/
abbrev Frame := Vector Byte 16

end Sys2Proof
end

