-- ==== Sys2Proof/Config.lean ====
section
/-! DEFINITION. The parameters of 00_scope.md R8, fixed for the life of a machine (R9). A value whose ground is
"source" or a decision of the spec is a definition. A parameter whose ground is GK ("the model must keep it a
parameter") or OPEN ("the model takes it as an argument"), or that its own rule keeps a parameter (the delays of
70_reset_and_hazards.md R300, the step-3 bind tag of 44_frames.md R234), is a field of `Params`; the shared operations take a
`Params` as an argument, and the machine runs with `Config.params`, an opaque record: no proof can see a value
of it, so whatever is proved holds for every value. -/
namespace Sys2Proof

/-- DEADLINE_POLICY (R8, OPEN): what an expired forced-rebind deadline does (42_link_binding.md R181). -/
inductive DeadlinePolicy where
  | ignore
  | rebind
deriving DecidableEq, Repr, Inhabited

/-- The offsets that 44_frames.md's tables of R235 and R238 give from general knowledge (93_implementation_defined.md
G8, G10, G11): where each field of a data or extended frame begins. Byte 0 carries the mode byte and byte 15 the
checksum whatever these are. -/
structure FrameOffsets where
  /-- cmd.thr, of a data frame -/
  thr : Nat
  /-- inv_yaw(cmd.yaw) -/
  yaw : Nat
  /-- inv_pitch(cmd.pitch) -/
  pitch : Nat
  /-- inv_roll(cmd.roll) -/
  roll : Nat
  /-- flags(cmd, k) -/
  flags : Nat
  /-- DATA_CONST -/
  dataConst : Nat
  /-- the first of the four bytes be32(TXID) -/
  txid : Nat
  /-- the first of the two bytes be16(cfg.vtxFreq), of an extended frame -/
  vtx : Nat
  /-- EXT_SEL, of an extended frame -/
  sel : Nat
deriving DecidableEq, Repr, Inhabited

/-- The fields of the two telemetry layouts (44_frames.md R241): the first four are layout A's, the other five
layout B's. -/
inductive TelemField where
  | rateOfClimb
  | verticalAccel
  | yawRate
  | batteryA
  | pitchAccel
  | rollAccel
  | pitchGyro
  | rollGyro
  | batteryB
deriving DecidableEq, Repr

/-- Where a telemetry field lies in its 16-byte buffer (TELEM_FIELDS, OPEN): byte offset and byte count. -/
structure FieldPlace where
  offset : Nat
  length : Nat
deriving DecidableEq, Repr, Inhabited

/-- The GK and OPEN parameters of R8, with the frame offsets that 44_frames.md's opening calls parameters.
Fields named `…Free` are not the parameter itself: a law of the spec restricts the parameter, and the accessor
named in the field's docstring is the parameter, built so that every lawful value is reached and no other. -/
structure Params where
  /-- ALLOWLIST (GK): 12 channel codes. -/
  allowlist : Vector Byte 12
  /-- TXID (GK). -/
  txid : Word
  /-- BIND_CONST (GK). -/
  bindConst : Vector Byte 5
  /-- HOP (GK). -/
  hop : Byte
  /-- CODE_RATE_REG (GK). -/
  codeRateReg : Byte
  /-- CODE_RATE_VAL (GK). -/
  codeRateVal : Byte
  /-- MODE_EXT (GK). -/
  modeExt : Byte
  /-- EXT_SEL (GK). -/
  extSel : Byte
  /-- FLAGS_BASE (GK). -/
  flagsBase : Byte
  /-- FLAG_VIDEO (GK). -/
  flagVideo : Byte
  /-- FLAG_LIGHT (GK). -/
  flagLight : Byte
  /-- FLAG_FLIP (GK). -/
  flagFlip : Byte
  /-- DATA_CONST (GK). -/
  dataConst : Byte
  /-- yaw ∈ INVERT (GK). -/
  invertYaw : Bool
  /-- pitch ∈ INVERT (GK). -/
  invertPitch : Bool
  /-- roll ∈ INVERT (GK). -/
  invertRoll : Bool
  /-- The frame offsets (GK, R235, R238) are `Params.frameOffsets` of Machine/Frames.lean, made from this. -/
  frameOffsetsFree : FrameOffsets
  /-- What a data frame carries at an offset from 1 to 14 where no field stands (GK, R235: 0x00). -/
  dataFill : Nat → Byte
  /-- BIND_TAG[3] (44_frames.md R234: it stays a parameter). The other three tags are the source's. -/
  bindTag3 : Byte
  /-- T_BIND_WRITE (GK; 70_reset_and_hazards.md R300: each named delay is a parameter). -/
  tBindWrite : Word
  /-- T_BIND_RX (R300). -/
  tBindRx : Word
  /-- T_BIND_RESTART (R300). -/
  tBindRestart : Word
  /-- T_BIND_READ (R300). -/
  tBindRead : Word
  /-- T_BIND_FAIL (R300). -/
  tBindFail : Word
  /-- T_BIND_RETRY (R300). -/
  tBindRetry : Word
  /-- T_LINK_SETTLE (R300). -/
  tLinkSettle : Word
  /-- T_TX (R300). -/
  tTx : Word
  /-- T_AWAIT_BUSY (R300). -/
  tAwaitBusy : Word
  /-- T_AWAIT_DONE (R300). -/
  tAwaitDone : Word
  /-- T_POLL (R300). -/
  tPoll : Word
  /-- THR_FLOOR (OPEN) is `Params.thrFloor` of Machine/Operands.lean, made from this. -/
  thrFloorFree : Nat
  /-- CK (GK, 10_state.md R47). -/
  ck : Payload → Byte
  /-- CKV (GK) is `Params.verify` of Machine/Frames.lean, made from this and CK. -/
  ckvFree : Frame → Bool
  /-- TAG_A (OPEN). -/
  tagA : Byte
  /-- TAG_B (OPEN) is `Params.tagB` of Machine/Frames.lean, made from this and TAG_A. -/
  tagBFree : Byte
  /-- TELEM_FIELDS (OPEN). -/
  telemFields : TelemField → FieldPlace
  /-- DEADLINE_POLICY (OPEN). -/
  deadlinePolicy : DeadlinePolicy
deriving Inhabited

namespace Config

/-- The parameters of the machine at hand: nothing constrains them. -/
opaque params : Params

/-- NCH (source). -/
def nch : Nat := 8

/-- SYNC_US (source). -/
def syncUs : Nat := 2500

/-- PW_MIN (source). -/
def pwMin : Nat := 800

/-- PW_MAX (source). -/
def pwMax : Nat := 2200

/-- PUB_INIT (source). -/
def pubInit : Half := 1500#16

/-- N_ALLOW (source). -/
def nAllow : Nat := 12

/-- SENTINEL (source). -/
def sentinel : Byte := 9#8

/-- MODE_NORMAL (source). -/
def modeNormal : Byte := 0x20#8

/-- GRACE (source). -/
def grace : Nat := 100

/-- EXT_AT (source). -/
def extAt : Nat := 100

/-- POLLS (source). -/
def polls : Nat := 7

/-- The offsets that R235 and R238 give as default. -/
def frameOffsetsDefault : FrameOffsets where
  thr := 2
  yaw := 4
  pitch := 6
  roll := 8
  flags := 9
  dataConst := 10
  txid := 11
  vtx := 1
  sel := 3

/-- The default CK of R231: the 16 bytes of a frame then sum to 0 modulo 256. -/
def ckDefault (b : Payload) : Byte :=
  BitVec.ofNat 8 ((256 - (b.toList.map BitVec.toNat).sum % 256) % 256)

/-- The default CKV of R232. -/
def ckvDefault (b : Frame) : Bool := decide ((b.toList.map BitVec.toNat).sum % 256 = 0)

/-- R8's defaults, for the values the spec leaves OPEN given as arguments. The machine does not run with these:
they instantiate the shared operations, as 95_test_vectors.md does. -/
def defaults (tagA tagB : Byte) (fields : TelemField → FieldPlace) (policy : DeadlinePolicy) : Params where
  allowlist := #v[0x14#8, 0x1E#8, 0x28#8, 0x32#8, 0x3C#8, 0x46#8, 0x50#8, 0x5A#8, 0x64#8, 0x6E#8, 0x78#8, 0x82#8]
  txid := 0xDB042679#32
  bindConst := #v[0x08#8, 0xE4#8, 0xEA#8, 0x9E#8, 0x50#8]
  hop := 0x23#8
  codeRateReg := 0x1F#8
  codeRateVal := 0x0F#8
  modeExt := 0x40#8
  extSel := 0x82#8
  flagsBase := 0x02#8
  flagVideo := 0x01#8
  flagLight := 0x04#8
  flagFlip := 0x08#8
  dataConst := 0x64#8
  invertYaw := true
  invertPitch := true
  invertRoll := false
  frameOffsetsFree := frameOffsetsDefault
  dataFill := fun _ => 0x00#8
  bindTag3 := 0x02#8
  tBindWrite := 3000#32
  tBindRx := 4500#32
  tBindRestart := 4500#32
  tBindRead := 500#32
  tBindFail := 15000#32
  tBindRetry := 15000#32
  tLinkSettle := 28000#32
  tTx := 3000#32
  tAwaitBusy := 0#32
  tAwaitDone := 3000#32
  tPoll := 1000#32
  thrFloorFree := 0
  ck := ckDefault
  ckvFree := ckvDefault
  tagA := tagA
  tagBFree := tagB
  telemFields := fields
  deadlinePolicy := policy

end Config

end Sys2Proof
end

