-- ==== Sys2Proof/Syntax.lean ====
section
/-! DEFINITION. The instruction set: one constructor of `Instr` per row of spec/opcode_table.json, and the
operand fields of 30_encoding.md R84 to R89. A field value outside its range is no illegal encoding (R91): it
decodes, so every operand type has a constructor that keeps such a code. -/
namespace Sys2Proof

/-- The two ports a word arrives on (30_encoding.md R80). -/
inductive Port where
  | cmd
  | edge
deriving DecidableEq, Repr

/-- `line` of formats S and E (30_encoding.md R85). -/
inductive LineField where
  | line0
  | line1
  | invalid (code : Byte)
deriving DecidableEq, Repr

/-- `pol` of formats S and E (30_encoding.md R84). -/
inductive PolField where
  | rising
  | falling
  | invalid (code : Byte)
deriving DecidableEq, Repr

/-- `id` of LE.SET_COMMAND (30_encoding.md R86). -/
inductive CommandId where
  | throttle
  | yaw
  | pitch
  | roll
  | flip
  | light
  | video
  | unrecognized (code : Byte)
deriving DecidableEq, Repr

/-- `id` of LE.SET_CONFIG (30_encoding.md R87). -/
inductive ConfigId where
  | forceBind
  | extEnable
  | txPower
  | vtxFreq
  | unrecognized (code : Byte)
deriving DecidableEq, Repr

/-- A telemetry buffer, selected by `sel` of format T (30_encoding.md R89; 10_state.md R48). -/
inductive TelemBuf where
  | a
  | b
deriving DecidableEq, Repr

/-- The nine operations of 30_encoding.md R83. -/
inductive Instr where
  /-- PD.SETUP, 40_pulse_decoder.md R121. -/
  | pdSetup (line : LineField) (pol : PolField)
  /-- PD.READ, 40_pulse_decoder.md R128. -/
  | pdRead
  /-- PD.EDGE, EDGE port only, 40_pulse_decoder.md R122. -/
  | pdEdge (line : LineField) (pol : PolField)
  /-- LE.BEGIN_BIND, 41_link_control.md R151. -/
  | leBeginBind
  /-- LE.SET_COMMAND, 41_link_control.md R156. -/
  | leSetCommand (id : CommandId) (value : Half)
  /-- LE.ADVANCE, 41_link_control.md R165. -/
  | leAdvance
  /-- LE.SET_CONFIG, 41_link_control.md R161. -/
  | leSetConfig (id : ConfigId) (value : Half)
  /-- LE.READ_TELEM, 41_link_control.md R163. -/
  | leReadTelem (sel : TelemBuf)
  /-- LE.READ_STATE, 41_link_control.md R164. -/
  | leReadState
deriving DecidableEq, Repr

end Sys2Proof
end

