-- ==== Sys2Proof/Machine/State.lean ====
section
/-! DEFINITION. The state of the block (10_state.md R20 to R52) as plain data, its inputs and outputs, and the
state after reset (70_reset_and_hazards.md R290, R291). -/
namespace Sys2Proof.Machine

/-- Edge polarity (10_state.md R23). -/
inductive Polarity where
  | rising
  | falling
deriving DecidableEq, Repr

/-- The Pulse Decoder (10_state.md section 2). -/
structure PulseDecoder where
  /-- pd.enabled (R23). -/
  enabled : Bool
  /-- pd.line (R23). -/
  line : BitVec 1
  /-- pd.polarity (R23). -/
  polarity : Polarity
  /-- pd.lastEdgeTime (R24). -/
  lastEdgeTime : Word
  /-- pd.index (R25): 4 bits, 0 to 8. -/
  index : BitVec 4
  /-- pd.raw[0..7] (R26). -/
  raw : Vector Half 8
  /-- pd.frameValid (R27). -/
  frameValid : Bool
  /-- pd.published[0..7] (R28). -/
  published : Vector Half 8
  /-- pd.fresh (R29). -/
  fresh : Bool
deriving DecidableEq, Repr

/-- le.phase (R32). -/
inductive Phase where
  | idle
  | binding
  | linked
deriving DecidableEq, Repr

/-- le.tphase (R35). -/
inductive TPhase where
  | transmit
  | awaitTransmit
  | pollReceive
deriving DecidableEq, Repr

/-- The CommandSet (R41). -/
structure CommandSet where
  thr : Byte
  yaw : Byte
  pitch : Byte
  roll : Byte
  flip : Bool
  light : Bool
  video : Bool
deriving DecidableEq, Repr

/-- The Link Engine: sequencer, session, CommandSet (10_state.md section 3) and telemetry buffers (section 5). -/
structure LinkEngine where
  /-- le.phase (R32). -/
  phase : Phase
  /-- le.step (R33). -/
  step : BitVec 4
  /-- le.awaitingWrite (R34). -/
  awaitingWrite : Bool
  /-- le.tphase (R35). -/
  tphase : TPhase
  /-- le.pollCount (R36): 3 bits, 0 to 7. -/
  pollCount : BitVec 3
  /-- le.sessionId (R37). -/
  sessionId : Word
  /-- le.channel (R38). -/
  channel : Byte
  /-- le.frameCount (R39), saturating. -/
  frameCount : Word
  /-- le.deadline (R40). -/
  deadline : Word
  /-- le.deadlineActive (R40). -/
  deadlineActive : Bool
  /-- le.cmd (R41). -/
  cmd : CommandSet
  /-- le.telem[A] (R48). -/
  telemA : Frame
  /-- le.telem[B] (R48). -/
  telemB : Frame
  /-- le.telemValid[A] (R48). -/
  telemValidA : Bool
  /-- le.telemValid[B] (R48). -/
  telemValidB : Bool
deriving DecidableEq, Repr

/-- The configuration registers (10_state.md section 4). -/
structure ConfigRegs where
  /-- cfg.forceBind (R43). -/
  forceBind : Bool
  /-- cfg.extEnable (R44). -/
  extEnable : Bool
  /-- cfg.txPower (R45). -/
  txPower : Byte
  /-- cfg.vtxFreq (R46). -/
  vtxFreq : Half
deriving DecidableEq, Repr

/-- The environment's choices for one event: the driver's answers (60_exceptions.md R278) and the random draws
(41_link_control.md R152). A step asks each at most once (R151, R167, R184, R186, R206), so one value of each
suffices. Any value is possible: these are the free values of the model. -/
structure Draws where
  /-- The answer of drv.Init(). -/
  initOk : Bool
  /-- The answer of drv.ComputeTimeout(). -/
  timeout : Word
  /-- The answer of drv.IsBusy(). -/
  busy : Bool
  /-- The answer of drv.ReadFrame(16). -/
  rx : Frame
  /-- The draw sid. -/
  sid : Word
  /-- The draw r, which selects the channel. -/
  chan : Word
deriving DecidableEq, Repr

/-- What the event being processed brings with it (10_state.md R22, R51): the model's own field. -/
structure Inputs where
  nowUs : Word
  nowMs : Word
  draws : Draws
deriving DecidableEq, Repr

/-- One event of the input stream (30_encoding.md R80). A CMD carries both clocks and the environment's draws for
its step; an EDGE carries the microsecond time captured at the edge (20_memory.md R68). -/
inductive Event where
  | reset
  | cmd (word nowUs nowMs : Word) (draws : Draws)
  | edge (word nowUs : Word)
deriving DecidableEq, Repr

/-- Status codes (30_encoding.md R96). -/
inductive Status where
  | ok
  | configError
  | badCommand
  | illegal
  | initFail
  | badField
  | idle
deriving DecidableEq, Repr

/-- The mode operand of the driver's strobe (60_exceptions.md R277). No operation of the block uses standby. -/
inductive StrobeMode where
  | rx
  | standby
deriving DecidableEq, Repr

/-- The driver transactions with their operands (60_exceptions.md R277). -/
inductive DriverTxn where
  | init
  | computeTimeout
  | writeFrame (frame : Frame) (length : Nat) (channel : Byte)
  | readFrame (length : Nat)
  | strobe (mode : StrobeMode)
  | isBusy
  | writeId (address : Word)
  | writeReg (register value : Byte)
  | setPower (level : Byte)
deriving DecidableEq, Repr

/-- What leaves the block (60_exceptions.md R280): a driver transaction, or the response of a CMD (R93). -/
inductive Output where
  | driver (t : DriverTxn)
  | response (status : Status) (data : List Word)
deriving DecidableEq, Repr

/-- The machine. `pd`, `le` and `cfg` are the spec's state (R20); `inputs`, `events` and `log` are the model's own:
the inputs of the event being processed, the events still to come, and what has been put out, oldest first. -/
structure State where
  pd : PulseDecoder
  le : LinkEngine
  cfg : ConfigRegs
  inputs : Inputs
  events : List Event
  log : List Output
deriving DecidableEq, Repr

/-- Why the machine stops. -/
inductive Fault where
  /-- Raised by LE.ADVANCE alone, in the Binding phase, when (le.step, le.awaitingWrite) is a combination that the
  case table of 42_link_binding.md R180 does not list; R42 says no operation produces one. The spec gives no effect
  there. Safe: the model stops, and no state reached from reset is one (log entry 4). -/
  | illegalSequencer
deriving DecidableEq, Repr

/-- Why an instruction has no meaning. No meaning of this model refuses. -/
inductive Refusal where
  /-- Raised by an arm of exec whose instruction is not modelled yet; no arm is one. Safe. -/
  | notModelled (mnemonic : String)
deriving DecidableEq, Repr

/-- PD after reset (R23 to R29). -/
def PulseDecoder.reset : PulseDecoder where
  enabled := false
  line := 0#1
  polarity := .rising
  lastEdgeTime := 0#32
  index := 8#4
  raw := Vector.replicate 8 Config.pubInit
  frameValid := false
  published := Vector.replicate 8 Config.pubInit
  fresh := false

/-- The CommandSet after reset (R41). -/
def CommandSet.reset : CommandSet where
  thr := 0x00#8
  yaw := 0x80#8
  pitch := 0x80#8
  roll := 0x80#8
  flip := false
  light := false
  video := false

/-- LE after reset (R32 to R41, R48). -/
def LinkEngine.reset : LinkEngine where
  phase := .idle
  step := 0#4
  awaitingWrite := false
  tphase := .transmit
  pollCount := 0#3
  sessionId := 0#32
  channel := 0#8
  frameCount := 0#32
  deadline := 0#32
  deadlineActive := false
  cmd := .reset
  telemA := Vector.replicate 16 0#8
  telemB := Vector.replicate 16 0#8
  telemValidA := false
  telemValidB := false

/-- Configuration after reset (R43 to R46). -/
def ConfigRegs.reset : ConfigRegs where
  forceBind := false
  extEnable := false
  txPower := 0#8
  vtxFreq := 0#16

/-- The latched inputs of a machine that has seen no event. DESIGN CHOICE (unsafe, log entry 2): the spec has no
such value; the first event overwrites what it uses. -/
def Inputs.none : Inputs where
  nowUs := 0#32
  nowMs := 0#32
  draws := { initOk := false, timeout := 0#32, busy := false, rx := Vector.replicate 16 0#8, sid := 0#32, chan := 0#32 }

/-- The machine right after reset (70_reset_and_hazards.md R290, R291), with no event waiting and nothing put out
(DESIGN CHOICE, log entries 1 to 3: the model's own fields). -/
def State.reset : State where
  pd := .reset
  le := .reset
  cfg := .reset
  inputs := .none
  events := []
  log := []

end Sys2Proof.Machine
end

