-- ==== Sys2Proof/Machine/Delays.lean ====
section
/-! DEFINITION. The two delay words of 70_reset_and_hazards.md R300 that have no name there and that their own rules
write as the number 0 (log entry 11). The named delays are fields of `Params`. -/
namespace Sys2Proof.Machine

/-- The delay of a deadline rebind (42_link_binding.md R181). -/
def tRebind : Word := 0#32

/-- The data word of LE.ADVANCE in Idle (41_link_control.md R166). -/
def tIdle : Word := 0#32

end Sys2Proof.Machine
end

