-- ==== Sys2Proof/Machine/Flags.lean ====
section
/-! DEFINITION. The conditions the block computes: the Pulse Decoder's width tests, which decide `pd.fresh` and
`pd.frameValid` (40_pulse_decoder.md R122 to R125), the deadline test (42_link_binding.md R181) and the flags byte
of a data frame (44_frames.md R236). -/
namespace Sys2Proof.Machine

/-- A sync edge: strictly wider than SYNC_US (R124). -/
def isSyncWidth (width : Word) : Bool := decide (Config.syncUs < width.toNat)

/-- A valid pulse: PW_MIN to PW_MAX, both inclusive (R125). -/
def pulseInRange (width : Word) : Bool := decide (Config.pwMin ≤ width.toNat ∧ width.toNat ≤ Config.pwMax)

/-- `deadline_fires` (R181): the deadline has been reached, as a wrapping comparison. -/
def deadlineFires (nowMs : Word) (le : LinkEngine) : Bool :=
  le.deadlineActive && decide ((nowMs - le.deadline).toNat < 2 ^ 31)

/-- A flag bit when its toggle is on, else nothing. -/
def flagWhen (on : Bool) (bit : Byte) : Byte := if on then bit else 0#8

/-- The flags byte of the frame of ordinal `k` (R236): the first GRACE frames carry light and flip whatever the
toggles are; later ones carry the toggles. -/
def flagsByte (P : Params) (cmd : CommandSet) (k : Nat) : Byte :=
  if k ≤ Config.grace then P.flagsBase ||| P.flagLight ||| P.flagFlip
  else P.flagsBase ||| flagWhen cmd.light P.flagLight ||| flagWhen cmd.flip P.flagFlip ||| flagWhen cmd.video P.flagVideo

end Sys2Proof.Machine
end

