-- ==== Sys2Proof/Machine/Operands.lean ====
section
/-! DEFINITION. The operand forms: what a line, polarity, telemetry selector or command value means to an operation
(30_encoding.md R84 to R89, 41_link_control.md R157 to R159). -/
namespace Sys2Proof

/-- The line a `line` field names, if it is a valid one (R85). -/
def LineField.line? : LineField → Option (BitVec 1)
  | .line0 => some 0#1
  | .line1 => some 1#1
  | .invalid _ => none

/-- The polarity a `pol` field names, if it is a valid one (R84). -/
def PolField.polarity? : PolField → Option Machine.Polarity
  | .rising => some .rising
  | .falling => some .falling
  | .invalid _ => none

namespace Machine

/-- IN_MIN (00_scope.md R8, source "roughly"). -/
def inMin : Nat := 1000

/-- IN_MAX (00_scope.md R8, source "roughly"). -/
def inMax : Nat := 2000

/-- TOGGLE_TH (00_scope.md R8, decision D25). -/
def toggleThreshold : Nat := 1500

/-- Rescale of 41_link_control.md R157: clamp to [lo, hi], then map linearly to 0 to 255, rounding toward zero. -/
def scale (v lo hi : Nat) : Nat := ((min (max v lo) hi - lo) * 255) / (hi - lo)

/-- A command value in the packet domain: `scale` over [lo, IN_MAX] (R156). -/
def scaleByte (value : Half) (lo : Nat) : Byte := BitVec.ofNat 8 (scale value.toNat lo inMax)

/-- A toggle command's bit (R159). -/
def toggleBit (value : Half) : Bool := decide (toggleThreshold ≤ value.toNat)

end Machine

/-- THR_FLOOR (41_link_control.md R158, OPEN): any value with IN_MIN ≤ THR_FLOOR < IN_MAX, each reached by some
`thrFloorFree`; 0 there gives the default 1000. -/
def Params.thrFloor (P : Params) : Nat :=
  Machine.inMin + P.thrFloorFree % (Machine.inMax - Machine.inMin)

end Sys2Proof
end

