-- ==== Sys2Proof/Machine/Ops.lean ====
section
/-! DEFINITION. The shared operations: the pseudocode primitives of 00_scope.md R13 (driver transactions, respond,
raise), the reset and latching of an event's inputs, starting a bind attempt, and byte order.
The block takes no exception and returns from none (60_exceptions.md R260, R273): an error is the status of the
response, and `State.raise` is the one operation that reports it. -/
namespace Sys2Proof.Machine

/-- Codes of the polarity (10_state.md R23). -/
def Polarity.code : Polarity → Byte
  | .rising => 0x01#8
  | .falling => 0x02#8

/-- Codes of le.phase (R32). -/
def Phase.code : Phase → BitVec 2
  | .idle => 0#2
  | .binding => 1#2
  | .linked => 2#2

/-- Codes of le.tphase (R35); 3 is never written. -/
def TPhase.code : TPhase → BitVec 2
  | .transmit => 0#2
  | .awaitTransmit => 1#2
  | .pollReceive => 2#2

/-- Status codes (30_encoding.md R96). -/
def Status.code : Status → Byte
  | .ok => 0x00#8
  | .configError => 0x01#8
  | .badCommand => 0x02#8
  | .illegal => 0x03#8
  | .initFail => 0x04#8
  | .badField => 0x05#8
  | .idle => 0x06#8

/-! Byte order (20_memory.md R62, R63; 00_scope.md R12). -/

/-- The u32 of four bytes, the first most significant. -/
def wordOfBytes (b0 b1 b2 b3 : Byte) : Word := b0 ++ b1 ++ b2 ++ b3

/-- Byte `i` of `be32(x)`, byte 0 being x[31:24]. -/
def be32Byte (x : Word) (i : Nat) : Byte := x.extractLsb' (24 - 8 * i) 8

/-- Byte `i` of `be16(x)`, byte 0 being x[15:8]. -/
def be16Byte (x : Half) (i : Nat) : Byte := x.extractLsb' (8 - 8 * i) 8

/-- A 16-byte buffer as four response words, big-endian (R63). -/
def frameWords (f : Frame) : List Word :=
  [wordOfBytes f[0] f[1] f[2] f[3], wordOfBytes f[4] f[5] f[6] f[7],
   wordOfBytes f[8] f[9] f[10] f[11], wordOfBytes f[12] f[13] f[14] f[15]]

/-- A state field placed at bit `lo` of a response word (20_memory.md R61). -/
def fieldAt (lo : Nat) {n : Nat} (v : BitVec n) : Word := v.setWidth 32 <<< lo

/-- A one-bit field placed at bit `lo` of a response word (R61). -/
def bitAt (lo : Nat) (b : Bool) : Word := fieldAt lo (BitVec.ofBool b)

/-- Issue one driver transaction (R13): transactions reach the driver in the order issued (60_exceptions.md R279). -/
def State.emit (s : State) (t : DriverTxn) : State := { s with log := s.log ++ [.driver t] }

/-- End the step with a response (R13; 30_encoding.md R95). -/
def State.respond (s : State) (status : Status) (data : List Word) : State :=
  { s with log := s.log ++ [.response status data] }

/-- `raise E` (R13): the response (E, []) and no state change. -/
def State.raise (s : State) (status : Status) : State := s.respond status []

/-- The inputs of a CMD event become the current ones. -/
def State.latchCmd (s : State) (nowUs nowMs : Word) (draws : Draws) : State :=
  { s with inputs := { nowUs := nowUs, nowMs := nowMs, draws := draws } }

/-- The time of an EDGE event becomes the current one; an EDGE carries no other input (R80). -/
def State.latchEdge (s : State) (nowUs : Word) : State :=
  { s with inputs := { s.inputs with nowUs := nowUs } }

/-- The RESET event (70_reset_and_hazards.md R290): every element of the spec's state takes its reset value; no
transaction, no response. The event stream, the latched inputs and the log, which are the model's own, stay. -/
def State.resetEvent (s : State) : State :=
  { State.reset with inputs := s.inputs, events := s.events, log := s.log }

/-- What a LinkEngine becomes when a bind attempt starts (41_link_control.md R151). The channel is
ALLOWLIST[r mod N_ALLOW] (R153). -/
def LinkEngine.startAttempt (P : Params) (d : Draws) (le : LinkEngine) : LinkEngine :=
  { le with
    sessionId := d.sid
    channel := P.allowlist[d.chan.toNat % 12]
    phase := .binding
    step := 1#4
    awaitingWrite := false
    tphase := .transmit
    pollCount := 0#3
    frameCount := 0#32
    deadline := d.timeout
    deadlineActive := true }

/-- What a LinkEngine becomes when driver Init fails (R151, R155). -/
def LinkEngine.abortAttempt (le : LinkEngine) : LinkEngine :=
  { le with phase := .idle, step := 0#4, awaitingWrite := false, deadlineActive := false }

/-- The pseudocode of R151, shared by LE.BEGIN_BIND and a deadline rebind (42_link_binding.md R181), which differ in
the data of the OK response. -/
def State.beginBind (P : Params) (okData : List Word) (s : State) : State :=
  if s.inputs.draws.initOk then
    ((({ s with le := s.le.startAttempt P s.inputs.draws }).emit .init).emit .computeTimeout).respond .ok okData
  else
    (({ s with le := s.le.abortAttempt }).emit .init).respond .initFail []

end Sys2Proof.Machine
end

