-- ==== Sys2Proof/Machine/Frames.lean ====
section
/-! DEFINITION. The frame builder and checksum framing of 44_frames.md sections 1 to 3, and the telemetry decoder of
its section 4. -/
namespace Sys2Proof

/-- CKV (44_frames.md R232): any function that validates every frame carrying its own checksum, and each such
function is reached by some `ckvFree`. -/
def Params.verify (P : Params) (f : Frame) : Bool := P.ckvFree f || decide (f[15] = P.ck f.pop)

/-- TAG_B (R240, OPEN): any byte but TAG_A, each reached by some `tagBFree`. -/
def Params.tagB (P : Params) : Byte := if P.tagBFree = P.tagA then P.tagA + 1#8 else P.tagBFree

/-- The offsets at which R235 places the fields that bytes 4 to 14 of a data and of an extended frame carry. -/
def FrameOffsets.tail (o : FrameOffsets) : List Nat :=
  [o.yaw, o.pitch, o.roll, o.flags, o.dataConst, o.txid, o.txid + 1, o.txid + 2, o.txid + 3]

/-- The offsets at which R238 places the fields that bytes 1 to 3 of an extended frame carry. -/
def FrameOffsets.head (o : FrameOffsets) : List Nat := [o.vtx, o.vtx + 1, o.sel]

/-- What R235 and R238 say of the offsets without fixing them (log entry 19): no two fields of a frame share a byte;
bytes 1 to 3 are the ones an extended frame replaces by its frequency and selector; the throttle, which it does not
carry, is one of them; every other field, which it carries as the data frame does, lies in bytes 4 to 14. -/
abbrev FrameOffsets.Lawful (o : FrameOffsets) : Prop :=
  (1 ≤ o.thr ∧ o.thr ≤ 3) ∧
  o.tail.Nodup ∧ (∀ i ∈ o.tail, 4 ≤ i ∧ i ≤ 14) ∧
  o.head.Nodup ∧ (∀ i ∈ o.head, 1 ≤ i ∧ i ≤ 3)

/-- The frame offsets (GK): any lawful ones, each reached by some `frameOffsetsFree`. -/
def Params.frameOffsets (P : Params) : FrameOffsets :=
  if P.frameOffsetsFree.Lawful then P.frameOffsetsFree else Config.frameOffsetsDefault

/-- The law R232 asks of CK and CKV. -/
def Params.ChecksumLaw (P : Params) : Prop := ∀ p : Payload, P.verify (p.push (P.ck p)) = true

namespace Machine

/-- A payload with its checksum appended at byte 15 (R230, R231). -/
def framed (P : Params) (p : Payload) : Frame := p.push (P.ck p)

/-- BIND_TAG (R234): a literal lookup, keyed by the write step; the value at step 3 is a parameter
(log entry 12). -/
def bindTag (P : Params) (step : BitVec 4) : Byte :=
  if step = 3#4 then P.bindTag3
  else if step = 7#4 then 0x09#8
  else 0x01#8

/-- Bytes 0 to 14 of a bind frame (R233). -/
def bindPayload (P : Params) (tag channel : Byte) (sid : Word) : Payload :=
  #v[tag, channel, be32Byte sid 0, be32Byte sid 1, be32Byte sid 2, be32Byte sid 3,
    P.bindConst[0], P.bindConst[1], P.bindConst[2], P.bindConst[3], P.bindConst[4],
    be32Byte P.txid 0, be32Byte P.txid 1, be32Byte P.txid 2, be32Byte P.txid 3]

/-- `bind_frame` (R233). -/
def bindFrame (P : Params) (tag channel : Byte) (sid : Word) : Frame := framed P (bindPayload P tag channel sid)

/-- `inv_a(v)` (R235, R237). -/
def invertWhen (on : Bool) (v : Byte) : Byte := if on then 255#8 - v else v

/-- Byte `i` of bytes 0 to 14 of a normal data frame (R235, R236): the mode byte first, every field at its offset, the
transmitter id big-endian (20_memory.md R62). -/
def dataByte (P : Params) (cmd : CommandSet) (k i : Nat) : Byte :=
  let o := P.frameOffsets
  if i = 0 then Config.modeNormal
  else if i = o.thr then cmd.thr
  else if i = o.yaw then invertWhen P.invertYaw cmd.yaw
  else if i = o.pitch then invertWhen P.invertPitch cmd.pitch
  else if i = o.roll then invertWhen P.invertRoll cmd.roll
  else if i = o.flags then flagsByte P cmd k
  else if i = o.dataConst then P.dataConst
  else if o.txid ≤ i ∧ i ≤ o.txid + 3 then be32Byte P.txid (i - o.txid)
  else P.dataFill i

/-- Byte `i` of bytes 0 to 14 of an extended frame (R238): the mode byte overridden, the video frequency big-endian
(20_memory.md R62) and the selector in bytes 1 to 3, the rest as in a data frame. -/
def extByte (P : Params) (cmd : CommandSet) (k : Nat) (cfg : ConfigRegs) (i : Nat) : Byte :=
  let o := P.frameOffsets
  if i = 0 then P.modeExt
  else if i = o.vtx then be16Byte cfg.vtxFreq 0
  else if i = o.vtx + 1 then be16Byte cfg.vtxFreq 1
  else if i = o.sel then P.extSel
  else dataByte P cmd k i

/-- The payload whose byte `i` is `f i`. -/
def payloadOf (f : Nat → Byte) : Payload :=
  #v[f 0, f 1, f 2, f 3, f 4, f 5, f 6, f 7, f 8, f 9, f 10, f 11, f 12, f 13, f 14]

/-- Whether the frame of ordinal `k` is the extended one (R239). -/
def isExtended (cfg : ConfigRegs) (k : Nat) : Bool := cfg.extEnable && decide (k = Config.extAt)

/-- `data_frame(cmd, k, cfg)` (R235, R238, R239). -/
def dataFrame (P : Params) (cmd : CommandSet) (k : Nat) (cfg : ConfigRegs) : Frame :=
  framed P (payloadOf (if isExtended cfg k then extByte P cmd k cfg else dataByte P cmd k))

/-- `telemetry_decode(rx)` (R240, R242): a validated frame with a known tag replaces that tag's buffer; any other
frame changes nothing. -/
def LinkEngine.telemetryDecode (P : Params) (rx : Frame) (le : LinkEngine) : LinkEngine :=
  if P.verify rx then
    if rx[0] = P.tagA then { le with telemA := rx, telemValidA := true }
    else if rx[0] = P.tagB then { le with telemB := rx, telemValidB := true }
    else le
  else le

/-- le.telem[b]. -/
def LinkEngine.telem (le : LinkEngine) : TelemBuf → Frame
  | .a => le.telemA
  | .b => le.telemB

/-- le.telemValid[b]. -/
def LinkEngine.telemValid (le : LinkEngine) : TelemBuf → Bool
  | .a => le.telemValidA
  | .b => le.telemValidB

/-- The buffer a telemetry field belongs to (R241). -/
def telemFieldBuffer : TelemField → TelemBuf
  | .rateOfClimb => .a
  | .verticalAccel => .a
  | .yawRate => .a
  | .batteryA => .a
  | .pitchAccel => .b
  | .rollAccel => .b
  | .pitchGyro => .b
  | .rollGyro => .b
  | .batteryB => .b

/-- A telemetry field's value (R241): the raw bytes of its buffer at the field's place. No operation reads it. -/
def LinkEngine.telemFieldBytes (P : Params) (le : LinkEngine) (f : TelemField) : List Byte :=
  ((le.telem (telemFieldBuffer f)).toList.drop (P.telemFields f).offset).take (P.telemFields f).length

end Machine

end Sys2Proof
end

