-- ==== Sys2Proof/Machine/LinkBinding.lean ====
section
/-! DEFINITION. LE.ADVANCE in the Binding phase (42_link_binding.md). -/
namespace Sys2Proof.Machine

/-- The branches of R180's case table. -/
inductive BindBranch where
  | write
  | followUp
  | read
  | resolve
deriving DecidableEq, Repr

/-- R180's case table on (le.step, le.awaitingWrite); no other combination is reachable (10_state.md R42). -/
def bindBranch (step : BitVec 4) (awaitingWrite : Bool) : Option BindBranch :=
  if step = 1#4 ∨ step = 3#4 ∨ step = 5#4 ∨ step = 7#4 then
    if awaitingWrite then some .followUp else some .write
  else if awaitingWrite then none
  else if step = 2#4 ∨ step = 4#4 ∨ step = 6#4 then some .read
  else if step = 8#4 then some .resolve
  else none

/-- BIND-WRITE (R182): on the session channel, never hopped. -/
def bindWrite (P : Params) (s : State) : State :=
  (({ s with le := { s.le with awaitingWrite := true } }).emit
    (.writeFrame (bindFrame P (bindTag P s.le.step) s.le.channel s.le.sessionId) 16 s.le.channel)).respond
    .ok [P.tBindWrite]

/-- BIND-FOLLOWUP (R183): the busy status is not queried. -/
def bindFollowUp (P : Params) (s : State) : State :=
  (({ s with le := { s.le with awaitingWrite := false, step := s.le.step + 1#4 } }).emit (.strobe .rx)).respond
    .ok [P.tBindRx]

/-- The link address in a received frame (R185). -/
def linkAddress (rx : Frame) : Word := wordOfBytes rx[2] rx[3] rx[4] rx[5]

/-- The address install of the step-4 read (R185); no other read step issues it. -/
def installAddress (s : State) : State :=
  if s.le.step = 4#4 then s.emit (.writeId (linkAddress s.inputs.draws.rx)) else s

/-- BIND-READ (R184, R185). -/
def bindRead (P : Params) (s : State) : State :=
  if s.inputs.draws.busy then
    (({ s with le := { s.le with step := 1#4, awaitingWrite := false } }).emit .isBusy).respond .ok [P.tBindRestart]
  else
    let t := installAddress ((s.emit .isBusy).emit (.readFrame 16))
    ({ t with le := { t.le with step := t.le.step + 1#4 } }).respond .ok [P.tBindRead]

/-- What a LinkEngine becomes when step 8 falls back (R186). -/
def LinkEngine.fallBack (le : LinkEngine) : LinkEngine := { le with step := 7#4, awaitingWrite := false }

/-- What a LinkEngine becomes on entry into Linked (R186, R188). -/
def LinkEngine.enterLinked (le : LinkEngine) : LinkEngine :=
  { le with
    phase := .linked
    step := 1#4
    tphase := .transmit
    pollCount := 0#3
    awaitingWrite := false
    deadlineActive := false }

/-- BIND-RESOLVE (R186, R187). -/
def bindResolve (P : Params) (s : State) : State :=
  if s.inputs.draws.busy && !s.cfg.forceBind then
    (({ s with le := s.le.fallBack }).emit .isBusy).respond .ok [P.tBindFail]
  else if s.inputs.draws.rx[1] = Config.sentinel ∨ s.cfg.forceBind = true then
    (((({ s with le := s.le.enterLinked }).emit .isBusy).emit (.readFrame 16)).emit
      (.writeReg P.codeRateReg P.codeRateVal)).respond .ok [P.tLinkSettle]
  else
    ((({ s with le := s.le.fallBack }).emit .isBusy).emit (.readFrame 16)).respond .ok [P.tBindRetry]

/-- LE.ADVANCE in Binding (R180, R181). -/
def advanceBinding (P : Params) (s : State) : Host.Outcome State Fault Refusal :=
  if deadlineFires s.inputs.nowMs s.le = true ∧ P.deadlinePolicy = .rebind then
    .next (s.beginBind P [tRebind])
  else
    match bindBranch s.le.step s.le.awaitingWrite with
    | some .write => .next (bindWrite P s)
    | some .followUp => .next (bindFollowUp P s)
    | some .read => .next (bindRead P s)
    | some .resolve => .next (bindResolve P s)
    | none => .fault .illegalSequencer

end Sys2Proof.Machine
end

