-- ==== Sys2Proof/Machine/LinkLinked.lean ====
section
/-! DEFINITION. LE.ADVANCE in the Linked phase (43_link_linked.md). -/
namespace Sys2Proof.Machine

/-- The power assertion on entering sub-step 1 (R202); no other sub-step issues it. -/
def assertPower (s : State) : State :=
  if s.le.step = 1#4 then s.emit (.setPower s.cfg.txPower) else s

/-- The channel of a sub-step's frame (R203): sub-step 5 hops. -/
def uplinkChannel (P : Params) (le : LinkEngine) : Byte := if le.step = 5#4 then le.channel + P.hop else le.channel

/-- The ordinal of the frame being built, a natural number (10_state.md R39; R204). -/
def LinkEngine.ordinal (le : LinkEngine) : Nat := le.frameCount.toNat + 1

/-- LINK-TRANSMIT (R201 to R204). -/
def linkTransmit (P : Params) (s : State) : State :=
  let t := (assertPower s).emit
    (.writeFrame (dataFrame P s.le.cmd s.le.ordinal s.cfg) 16 (uplinkChannel P s.le))
  ({ t with le := { t.le with frameCount := BitVec.ofNat 32 (min s.le.ordinal (2 ^ 32 - 1)), tphase := .awaitTransmit } }).respond
    .ok [P.tTx]

/-- LINK-AWAIT (R205): nothing bounds the busy answers. -/
def linkAwait (P : Params) (s : State) : State :=
  if s.inputs.draws.busy then (s.emit .isBusy).respond .ok [P.tAwaitBusy]
  else
    ((({ s with le := { s.le with pollCount := 0#3, tphase := .pollReceive } }).emit .isBusy).emit (.strobe .rx)).respond
      .ok [P.tAwaitDone]

/-- The receive part of a poll (R206): a frame, when the driver holds one, is read, decoded and receive re-armed. -/
def pollDriver (P : Params) (s : State) : State :=
  if s.inputs.draws.busy then s.emit .isBusy
  else
    ((({ s with le := s.le.telemetryDecode P s.inputs.draws.rx }).emit .isBusy).emit (.readFrame 16)).emit (.strobe .rx)

/-- The poll count, and the end of the sub-step at the POLLS-th poll (R206, R207). -/
def LinkEngine.countPoll (le : LinkEngine) : LinkEngine :=
  let n := le.pollCount.toNat + 1
  if n = Config.polls then
    { le with pollCount := BitVec.ofNat 3 n, step := BitVec.ofNat 4 (le.step.toNat % 5 + 1), tphase := .transmit }
  else { le with pollCount := BitVec.ofNat 3 n }

/-- LINK-POLL (R206): the delay is the same, busy or not. -/
def linkPoll (P : Params) (s : State) : State :=
  let t := pollDriver P s
  ({ t with le := t.le.countPoll }).respond .ok [P.tPoll]

/-- LE.ADVANCE in Linked (R200). -/
def advanceLinked (P : Params) (s : State) : State :=
  match s.le.tphase with
  | .transmit => linkTransmit P s
  | .awaitTransmit => linkAwait P s
  | .pollReceive => linkPoll P s

end Sys2Proof.Machine
end

