-- ==== Sys2Proof/Machine/LinkAdvance.lean ====
section
/-! DEFINITION. LE.ADVANCE: the dispatch on the phase (41_link_control.md R165 to R168). -/
namespace Sys2Proof.Machine

/-- LE.ADVANCE over given parameters (R165); in Idle it answers IDLE and touches nothing (R166). -/
def advance (P : Params) (s : State) : Host.Outcome State Fault Refusal :=
  match s.le.phase with
  | .idle => .next (s.respond .idle [tIdle])
  | .binding => advanceBinding P s
  | .linked => .next (advanceLinked P s)

/-- LE.ADVANCE (R165). -/
def execLeAdvance (s : State) : Host.Outcome State Fault Refusal := advance Config.params s

end Sys2Proof.Machine
end

