-- ==== Sys2Proof/Machine/LinkControl.lean ====
section
/-! DEFINITION. The Link Engine operations other than LE.ADVANCE (41_link_control.md R150 to R164). -/
namespace Sys2Proof.Machine

/-- LE.BEGIN_BIND (R151 to R155): accepted in every phase. -/
def execLeBeginBind (s : State) : Host.Outcome State Fault Refusal :=
  .next (s.beginBind Config.params [])

/-- The CommandSet after one command, if its identifier is recognised (R156 to R160). No axis is inverted here
(44_frames.md R237). -/
def CommandSet.ingest (P : Params) (cmd : CommandSet) (id : CommandId) (value : Half) : Option CommandSet :=
  match id with
  | .throttle => some { cmd with thr := scaleByte value P.thrFloor }
  | .yaw => some { cmd with yaw := scaleByte value inMin }
  | .pitch => some { cmd with pitch := scaleByte value inMin }
  | .roll => some { cmd with roll := scaleByte value inMin }
  | .flip => some { cmd with flip := toggleBit value }
  | .light => some { cmd with light := toggleBit value }
  | .video => some { cmd with video := toggleBit value }
  | .unrecognized _ => none

/-- LE.SET_COMMAND over given parameters (R156). -/
def State.setCommand (P : Params) (id : CommandId) (value : Half) (s : State) : State :=
  match s.le.cmd.ingest P id value with
  | some cmd => ({ s with le := { s.le with cmd := cmd } }).respond .ok []
  | none => s.raise .badCommand

/-- LE.SET_COMMAND (R156): accepted in every phase. -/
def execLeSetCommand (id : CommandId) (value : Half) (s : State) : Host.Outcome State Fault Refusal :=
  .next (s.setCommand Config.params id value)

/-- The configuration registers after one write, if the field is recognised (R161, R162). -/
def ConfigRegs.write (cfg : ConfigRegs) (id : ConfigId) (value : Half) : Option ConfigRegs :=
  match id with
  | .forceBind => some { cfg with forceBind := decide (value ≠ 0#16) }
  | .extEnable => some { cfg with extEnable := decide (value ≠ 0#16) }
  | .txPower => some { cfg with txPower := value.extractLsb' 0 8 }
  | .vtxFreq => some { cfg with vtxFreq := value }
  | .unrecognized _ => none

/-- LE.SET_CONFIG (R161): accepted in every phase. -/
def execLeSetConfig (id : ConfigId) (value : Half) (s : State) : Host.Outcome State Fault Refusal :=
  match s.cfg.write id value with
  | some cfg => .next (({ s with cfg := cfg }).respond .ok [])
  | none => .next (s.raise .badField)

/-- LE.READ_TELEM's 5 data words (R163; 30_encoding.md R94). -/
def LinkEngine.telemWords (le : LinkEngine) (sel : TelemBuf) : List Word :=
  bitAt 0 (le.telemValid sel) :: frameWords (le.telem sel)

/-- LE.READ_TELEM (R163): no state change. -/
def execLeReadTelem (sel : TelemBuf) (s : State) : Host.Outcome State Fault Refusal :=
  .next (s.respond .ok (s.le.telemWords sel))

/-- Word 0 of the state blob: the sequencer (20_memory.md R61). -/
def sequencerWord (s : State) : Word :=
  fieldAt 0 s.le.phase.code ||| fieldAt 4 s.le.step ||| bitAt 8 s.le.awaitingWrite ||| fieldAt 12 s.le.tphase.code |||
    fieldAt 16 s.le.pollCount ||| bitAt 24 s.le.deadlineActive ||| bitAt 25 s.cfg.forceBind ||| bitAt 26 s.cfg.extEnable

/-- Word 5: the four axes (R61). -/
def axesWord (c : CommandSet) : Word := fieldAt 0 c.thr ||| fieldAt 8 c.yaw ||| fieldAt 16 c.pitch ||| fieldAt 24 c.roll

/-- Word 6: the three toggles (R61). -/
def togglesWord (c : CommandSet) : Word := bitAt 0 c.flip ||| bitAt 1 c.light ||| bitAt 2 c.video

/-- Word 7: transmit power and video frequency (R61). -/
def radioWord (c : ConfigRegs) : Word := fieldAt 0 c.txPower ||| fieldAt 16 c.vtxFreq

/-- Word 8: the Pulse Decoder's scalars (R61). -/
def decoderWord (pd : PulseDecoder) : Word :=
  bitAt 0 pd.enabled ||| fieldAt 1 pd.line ||| fieldAt 8 pd.polarity.code ||| fieldAt 16 pd.index |||
    bitAt 20 pd.frameValid ||| bitAt 21 pd.fresh

/-- Word 26: the telemetry valid bits (R61). -/
def telemValidWord (le : LinkEngine) : Word := bitAt 0 le.telemValidA ||| bitAt 1 le.telemValidB

/-- The 27 words of the state blob, index 0 to 26 (R61). -/
def stateWords (s : State) : List Word :=
  [sequencerWord s, s.le.sessionId, fieldAt 0 s.le.channel, s.le.frameCount, s.le.deadline,
   axesWord s.le.cmd, togglesWord s.le.cmd, radioWord s.cfg, decoderWord s.pd, s.pd.lastEdgeTime] ++
  s.pd.raw.toList.map (fun w => w.setWidth 32) ++
  s.pd.published.toList.map (fun w => w.setWidth 32) ++
  [telemValidWord s.le]

/-- LE.READ_STATE (R164): no state change. -/
def execLeReadState (s : State) : Host.Outcome State Fault Refusal :=
  .next (s.respond .ok (stateWords s))

end Sys2Proof.Machine
end

