-- ==== Sys2Proof/Machine/PulseDecoder.lean ====
section
/-! DEFINITION. PD.SETUP, PD.EDGE and PD.READ (40_pulse_decoder.md). -/
namespace Sys2Proof.Machine

/-- PD.SETUP (R121): bind the edge handler, or CONFIG_ERROR (60_exceptions.md R262). -/
def execPdSetup (line : LineField) (pol : PolField) (s : State) : Host.Outcome State Fault Refusal :=
  match line.line?, pol.polarity? with
  | some l, some p => .next (({ s with pd := { s.pd with line := l, polarity := p, enabled := true } }).respond .ok [])
  | _, _ => .next (s.raise .configError)

/-- A qualifying edge (R120). -/
def PulseDecoder.qualifies (pd : PulseDecoder) (line : LineField) (pol : PolField) : Bool :=
  pd.enabled && decide (line.line? = some pd.line) && decide (pol.polarity? = some pd.polarity)

/-- The edge handler on a qualifying edge at time `nowUs` (R122 to R127); the width is the difference modulo 2^32
(R123). -/
def PulseDecoder.onEdge (nowUs : Word) (pd : PulseDecoder) : PulseDecoder :=
  let width := nowUs - pd.lastEdgeTime
  if isSyncWidth width then
    { pd with lastEdgeTime := nowUs, fresh := pd.frameValid, frameValid := true, index := 0#4 }
  else if h : pd.index.toNat < 8 then
    if pulseInRange width then
      { pd with lastEdgeTime := nowUs, raw := pd.raw.set pd.index.toNat (width.extractLsb' 0 16) h, index := pd.index + 1#4 }
    else
      { pd with lastEdgeTime := nowUs, frameValid := false, index := pd.index + 1#4 }
  else
    { pd with lastEdgeTime := nowUs }

/-- PD.EDGE (R120, R122): no response. -/
def execPdEdge (line : LineField) (pol : PolField) (s : State) : Host.Outcome State Fault Refusal :=
  if s.pd.qualifies line pol then .next { s with pd := s.pd.onEdge s.inputs.nowUs }
  else .next s

/-- PD.READ's 9 data words (R128; 30_encoding.md R94), from the state before the read: the published array after the
copy is the raw array. -/
def PulseDecoder.readWords (pd : PulseDecoder) : List Word :=
  (bitAt 0 pd.fresh ||| bitAt 1 pd.frameValid) :: pd.raw.toList.map (fun w => w.setWidth 32)

/-- PD.READ (R128), one atomic step (20_memory.md R66). -/
def execPdRead (s : State) : Host.Outcome State Fault Refusal :=
  .next (({ s with pd := { s.pd with published := s.pd.raw, fresh := false } }).respond .ok s.pd.readWords)

end Sys2Proof.Machine
end

