-- ==== Sys2Proof/Machine/Dispatch.lean ====
section
/-! DEFINITION. One arm per row of spec/opcode_table.json, each a direct call of its meaning. -/
namespace Sys2Proof.Machine

def exec (i : Instr) (s : State) : Host.Outcome State Fault Refusal :=
  match i with
  | .pdSetup line pol => Sys2Proof.Machine.execPdSetup line pol s
  | .pdRead => Sys2Proof.Machine.execPdRead s
  | .pdEdge line pol => Sys2Proof.Machine.execPdEdge line pol s
  | .leBeginBind => Sys2Proof.Machine.execLeBeginBind s
  | .leSetCommand id value => Sys2Proof.Machine.execLeSetCommand id value s
  | .leAdvance => Sys2Proof.Machine.execLeAdvance s
  | .leSetConfig id value => Sys2Proof.Machine.execLeSetConfig id value s
  | .leReadTelem sel => Sys2Proof.Machine.execLeReadTelem sel s
  | .leReadState => Sys2Proof.Machine.execLeReadState s

end Sys2Proof.Machine
end

