-- ==== Sys2Proof/WellFormed.lean ====
section
/-! DEFINITION. Which terms of `Instr` some word encodes: an out-of-range constructor may only carry a code
that is out of range (30_encoding.md R84 to R87), so that every field value has exactly one term. -/
namespace Sys2Proof

/-- Line codes 0x00 and 0x01 are the two lines (R85); every other code is invalid. -/
def LineField.wellFormed : LineField → Bool
  | .line0 => true
  | .line1 => true
  | .invalid c => decide (2 ≤ c.toNat)

/-- Polarity codes 0x01 and 0x02 are the two polarities (R84); every other code is invalid. -/
def PolField.wellFormed : PolField → Bool
  | .rising => true
  | .falling => true
  | .invalid c => decide (c.toNat ≠ 1 ∧ c.toNat ≠ 2)

/-- Command ids 0x00 to 0x06 are recognised (R86). -/
def CommandId.wellFormed : CommandId → Bool
  | .unrecognized c => decide (7 ≤ c.toNat)
  | .throttle => true
  | .yaw => true
  | .pitch => true
  | .roll => true
  | .flip => true
  | .light => true
  | .video => true

/-- Configuration fields 0x00 to 0x03 are recognised (R87). -/
def ConfigId.wellFormed : ConfigId → Bool
  | .unrecognized c => decide (4 ≤ c.toNat)
  | .forceBind => true
  | .extEnable => true
  | .txPower => true
  | .vtxFreq => true

/-- A well-formed instruction: one that some 32-bit word encodes. -/
def Instr.wellFormed : Instr → Bool
  | .pdSetup line pol => line.wellFormed && pol.wellFormed
  | .pdRead => true
  | .pdEdge line pol => line.wellFormed && pol.wellFormed
  | .leBeginBind => true
  | .leSetCommand id _ => id.wellFormed
  | .leAdvance => true
  | .leSetConfig id _ => id.wellFormed
  | .leReadTelem _ => true
  | .leReadState => true

end Sys2Proof
end

