-- ==== Sys2Proof/Decode.lean ====
section
/-! DEFINITION. The decoder of 30_encoding.md, total on any word of either port (R90), and after it the
encoder. Reserved bits are never read (R88); the opcode alone decides the row (R90). -/
namespace Sys2Proof

/-- Bits [31:24], the opcode of every word (R81). -/
def opcodeField (w : Word) : Byte := w.extractLsb' 24 8

/-- Bits [23:16]: `id` of format K (R82). -/
def idField (w : Word) : Byte := w.extractLsb' 16 8

/-- Bits [15:8]: `line` of formats S and E (R82). -/
def lineField (w : Word) : Byte := w.extractLsb' 8 8

/-- Bits [7:0]: `pol` of formats S and E (R82). -/
def polField (w : Word) : Byte := w.extractLsb' 0 8

/-- Bits [15:0]: `value` of format K (R82). -/
def valueField (w : Word) : Half := w.extractLsb' 0 16

/-- Bit 0: `sel` of format T (R82). -/
def selField (w : Word) : BitVec 1 := w.extractLsb' 0 1

/-- R85. -/
def decodeLine (c : Byte) : LineField :=
  if c = 0x00#8 then .line0
  else if c = 0x01#8 then .line1
  else .invalid c

/-- R84. -/
def decodePol (c : Byte) : PolField :=
  if c = 0x01#8 then .rising
  else if c = 0x02#8 then .falling
  else .invalid c

/-- R86. -/
def decodeCommandId (c : Byte) : CommandId :=
  if c = 0x00#8 then .throttle
  else if c = 0x01#8 then .yaw
  else if c = 0x02#8 then .pitch
  else if c = 0x03#8 then .roll
  else if c = 0x04#8 then .flip
  else if c = 0x05#8 then .light
  else if c = 0x06#8 then .video
  else .unrecognized c

/-- R87. -/
def decodeConfigId (c : Byte) : ConfigId :=
  if c = 0x00#8 then .forceBind
  else if c = 0x01#8 then .extEnable
  else if c = 0x02#8 then .txPower
  else if c = 0x03#8 then .vtxFreq
  else .unrecognized c

/-- R89: `sel` 0 selects buffer A, 1 buffer B. -/
def decodeSel (c : BitVec 1) : TelemBuf := if c = 0#1 then .a else .b

/-- What the decoder makes of a word: an instruction, or a rejection by name. -/
inductive Decoded where
  /-- One of the nine rows of R83. -/
  | instr (i : Instr)
  /-- A reserved opcode on the CMD port (R92): answered with ILLEGAL. -/
  | illegal (opcode : Byte)
  /-- A word of the EDGE port that is no PD.EDGE (R90): dropped without a trace. -/
  | discarded (opcode : Byte)
deriving DecidableEq, Repr

/-- A word of the CMD port (R83, R90, R92). -/
def decodeCmd (w : Word) : Decoded :=
  if opcodeField w = 0x01#8 then .instr (.pdSetup (decodeLine (lineField w)) (decodePol (polField w)))
  else if opcodeField w = 0x02#8 then .instr .pdRead
  else if opcodeField w = 0x10#8 then .instr .leBeginBind
  else if opcodeField w = 0x11#8 then .instr (.leSetCommand (decodeCommandId (idField w)) (valueField w))
  else if opcodeField w = 0x12#8 then .instr .leAdvance
  else if opcodeField w = 0x13#8 then .instr (.leSetConfig (decodeConfigId (idField w)) (valueField w))
  else if opcodeField w = 0x14#8 then .instr (.leReadTelem (decodeSel (selField w)))
  else if opcodeField w = 0x15#8 then .instr .leReadState
  else .illegal (opcodeField w)

/-- A word of the EDGE port (R83, R90). -/
def decodeEdge (w : Word) : Decoded :=
  if opcodeField w = 0x03#8 then .instr (.pdEdge (decodeLine (lineField w)) (decodePol (polField w)))
  else .discarded (opcodeField w)

/-- The decoder: total on both ports (R90). -/
def decode : Port → Word → Decoded
  | .cmd, w => decodeCmd w
  | .edge, w => decodeEdge w

/-- The port a row of the opcode table belongs to, by its opcode (R83): PD.EDGE alone is an edge word. -/
def portOfOpcode (op : Byte) : Port := if op = 0x03#8 then .edge else .cmd

/-- The 32-bit word whose low `nbits` bits are those of `w`, the bits above them 0. -/
def tableWord (nbits w : Nat) : Word := BitVec.ofNat 32 (w % 2 ^ nbits)

/-- The instruction the decoder reads from an opcode-table word, on the port the table gives its row. -/
def decodeTableWord (nbits w : Nat) : Option Instr :=
  match decode (portOfOpcode (opcodeField (tableWord nbits w))) (tableWord nbits w) with
  | .instr i => some i
  | .illegal _ => none
  | .discarded _ => none

/-! The encoder, from the same tables (30_encoding.md R82 to R87, R98); reserved bits are written 0 (R88). -/

/-- R85. -/
def LineField.code : LineField → Byte
  | .line0 => 0x00#8
  | .line1 => 0x01#8
  | .invalid c => c

/-- R84. -/
def PolField.code : PolField → Byte
  | .rising => 0x01#8
  | .falling => 0x02#8
  | .invalid c => c

/-- R86. -/
def CommandId.code : CommandId → Byte
  | .throttle => 0x00#8
  | .yaw => 0x01#8
  | .pitch => 0x02#8
  | .roll => 0x03#8
  | .flip => 0x04#8
  | .light => 0x05#8
  | .video => 0x06#8
  | .unrecognized c => c

/-- R87. -/
def ConfigId.code : ConfigId → Byte
  | .forceBind => 0x00#8
  | .extEnable => 0x01#8
  | .txPower => 0x02#8
  | .vtxFreq => 0x03#8
  | .unrecognized c => c

/-- R89. -/
def TelemBuf.code : TelemBuf → BitVec 1
  | .a => 0#1
  | .b => 1#1

/-- Format N: opcode, no operand. -/
def formatN (op : Byte) : Word := op ++ 0#24

/-- Formats S and E: opcode, reserved byte, line, polarity. -/
def formatS (op line pol : Byte) : Word := op ++ 0#8 ++ line ++ pol

/-- Format K: opcode, id, value. -/
def formatK (op id : Byte) (value : Half) : Word := op ++ id ++ value

/-- Format T: opcode, reserved bits, sel. -/
def formatT (op : Byte) (sel : BitVec 1) : Word := op ++ 0#23 ++ sel

/-- The opcode of R83. -/
def Instr.opcode : Instr → Byte
  | .pdSetup _ _ => 0x01#8
  | .pdRead => 0x02#8
  | .pdEdge _ _ => 0x03#8
  | .leBeginBind => 0x10#8
  | .leSetCommand _ _ => 0x11#8
  | .leAdvance => 0x12#8
  | .leSetConfig _ _ => 0x13#8
  | .leReadTelem _ => 0x14#8
  | .leReadState => 0x15#8

/-- The port an instruction's words arrive on (R83). -/
def Instr.port (i : Instr) : Port := portOfOpcode i.opcode

/-- The word of an instruction (R82, R83, R98). -/
def encode : Instr → Word
  | .pdSetup line pol => formatS 0x01#8 line.code pol.code
  | .pdRead => formatN 0x02#8
  | .pdEdge line pol => formatS 0x03#8 line.code pol.code
  | .leBeginBind => formatN 0x10#8
  | .leSetCommand id value => formatK 0x11#8 id.code value
  | .leAdvance => formatN 0x12#8
  | .leSetConfig id value => formatK 0x13#8 id.code value
  | .leReadTelem sel => formatT 0x14#8 sel.code
  | .leReadState => formatN 0x15#8

/-- The bits of a word that are not reserved in the format of its opcode (R82): all bits of an unknown opcode
but the opcode's own are unread. -/
def usedBits (op : Byte) : Word :=
  if op = 0x01#8 ∨ op = 0x03#8 then 0xFF00FFFF#32
  else if op = 0x11#8 ∨ op = 0x13#8 then 0xFFFFFFFF#32
  else if op = 0x14#8 then 0xFF000001#32
  else 0xFF000000#32

end Sys2Proof
end

