-- ==== Sys2Proof/Machine/Fetch.lean ====
section
/-! DEFINITION. Taking the next event off the stream (30_encoding.md R80, R90, R92; 20_memory.md R66, R67). -/
namespace Sys2Proof.Machine

/-- What an event asks of the block. -/
inductive Fetched where
  /-- Nothing to execute: the step ends in this state. -/
  | done (s : State)
  /-- An instruction to execute in this state. -/
  | run (i : Instr) (s : State)
deriving DecidableEq, Repr

/-- A decoded word: an instruction runs, a reserved opcode of the CMD port is answered ILLEGAL (R92), any other word
of the EDGE port is dropped (R90). -/
def fetchDecoded (d : Decoded) (s : State) : Fetched :=
  match d with
  | .instr i => .run i s
  | .illegal _ => .done (s.raise .illegal)
  | .discarded _ => .done s

/-- One event, already taken off the stream. -/
def fetchEvent (e : Event) (s : State) : Fetched :=
  match e with
  | .reset => .done s.resetEvent
  | .cmd w nowUs nowMs draws => fetchDecoded (decode .cmd w) (s.latchCmd nowUs nowMs draws)
  | .edge w nowUs => fetchDecoded (decode .edge w) (s.latchEdge nowUs)

/-- The head of the event stream; with no event waiting the block holds its state (60_exceptions.md R283). -/
def fetch (s : State) : Fetched :=
  match s.events with
  | [] => .done s
  | e :: rest => fetchEvent e { s with events := rest }

/-- The event that carries a word with the inputs `s` holds, on the port the opcode table gives its opcode (R83). -/
def wordEvent (s : State) (w : Word) : Event :=
  match portOfOpcode (opcodeField w) with
  | .cmd => .cmd w s.inputs.nowUs s.inputs.nowMs s.inputs.draws
  | .edge => .edge w s.inputs.nowUs

end Sys2Proof.Machine
end

