-- ==== Sys2Proof/Machine/Step.lean ====
section
/-! DEFINITION. One step: one event (20_memory.md R66). -/
namespace Sys2Proof.Machine

/-- Take the next event and execute what it asks. -/
def step (s : State) : Host.Outcome State Fault Refusal :=
  match fetch s with
  | .done t => .next t
  | .run i t => exec i t

/-- `s` with one word placed at the head of the event stream, where `step` takes its next instruction from. The event
carries the inputs `s` already holds, so nothing else changes. -/
def State.withFetchWord (s : State) (nbits w : Nat) : State :=
  { s with events := wordEvent s (tableWord nbits w) :: s.events }

end Sys2Proof.Machine
end

