-- ==== Sys2Proof/Safety.lean ====
section
/-! DEFINITION. What counts as a legal state and a safe run, in the terms the claims use: the legal combinations the
spec states (10_state.md R25, R30, R38, R42, R48; 43_link_linked.md R209), and the event streams and outputs that
claims speak about. Every predicate is an abbreviation of a decidable one. -/
namespace Sys2Proof.Machine

/-- A write step of the bind handshake (42_link_binding.md R180). -/
abbrev OddBindStep (step : BitVec 4) : Prop := step = 1#4 ∨ step = 3#4 ∨ step = 5#4 ∨ step = 7#4

/-- The legal sequencer combinations (10_state.md R42, R34). -/
abbrev SequencerLegal (le : LinkEngine) : Prop :=
  (le.phase = .idle → le.step = 0#4 ∧ le.awaitingWrite = false) ∧
  (le.phase = .binding → (1 ≤ le.step.toNat ∧ le.step.toNat ≤ 8) ∧ (le.awaitingWrite = true → OddBindStep le.step)) ∧
  (le.phase = .linked → (1 ≤ le.step.toNat ∧ le.step.toNat ≤ 5) ∧ le.awaitingWrite = false)

/-- While polls are outstanding fewer than POLLS have been counted (43_link_linked.md R207, R210). -/
abbrev PollLegal (le : LinkEngine) : Prop :=
  le.phase = .linked → le.tphase = .pollReceive → le.pollCount.toNat < Config.polls

/-- Outside Idle the channel is an element of ALLOWLIST (10_state.md R38). -/
abbrev ChannelLegal (P : Params) (le : LinkEngine) : Prop := le.phase ≠ .idle → le.channel ∈ P.allowlist.toList

/-- The deadline is active exactly while binding (10_state.md R40; 43_link_linked.md R209). -/
abbrev DeadlineLegal (le : LinkEngine) : Prop := le.deadlineActive = true ↔ le.phase = .binding

/-- A channel entry: PUB_INIT, or a width the edge handler accepts (10_state.md R30). -/
abbrev ChannelWidth (w : Half) : Prop :=
  w = Config.pubInit ∨ (Config.pwMin ≤ w.toNat ∧ w.toNat ≤ Config.pwMax)

/-- The Pulse Decoder's index and arrays (10_state.md R25, R30). -/
abbrev DecoderLegal (pd : PulseDecoder) : Prop :=
  pd.index.toNat ≤ Config.nch ∧ (∀ w ∈ pd.raw.toList, ChannelWidth w) ∧ (∀ w ∈ pd.published.toList, ChannelWidth w)

/-- A telemetry buffer is all zero until a frame of its tag validated, and then holds such a frame (10_state.md R48,
41_link_control.md R163, 44_frames.md R243). -/
abbrev TelemetryLegal (P : Params) (le : LinkEngine) : Prop :=
  (if le.telemValidA = true then P.verify le.telemA = true ∧ le.telemA[0] = P.tagA
    else le.telemA = Vector.replicate 16 0#8) ∧
  (if le.telemValidB = true then P.verify le.telemB = true ∧ le.telemB[0] = P.tagB
    else le.telemB = Vector.replicate 16 0#8)

/-- LE.ADVANCE in Binding proceeds by the case table: the deadline has not fired, or the policy ignores it
(42_link_binding.md R180, R181). -/
abbrev NoRebind (s : State) : Prop :=
  deadlineFires s.inputs.nowMs s.le = false ∨ Config.params.deadlinePolicy = .ignore

/-- The responses among some outputs (30_encoding.md R93). -/
def responsesOf : List Output → List (Status × List Word)
  | [] => []
  | .response st data :: rest => (st, data) :: responsesOf rest
  | .driver _ :: rest => responsesOf rest

/-- The driver transactions among some outputs (60_exceptions.md R280). -/
def transactionsOf : List Output → List DriverTxn
  | [] => []
  | .driver t :: rest => t :: transactionsOf rest
  | .response _ _ :: rest => transactionsOf rest

/-- Whether a transaction transmits a frame. -/
def DriverTxn.isWriteFrame : DriverTxn → Bool
  | .writeFrame _ _ _ => true
  | .init => false
  | .computeTimeout => false
  | .readFrame _ => false
  | .strobe _ => false
  | .isBusy => false
  | .writeId _ => false
  | .writeReg _ _ => false
  | .setPower _ => false

/-- How many data words an OK response has (30_encoding.md R94); PD.EDGE has no response. -/
def okDataLength : Instr → Nat
  | .pdSetup _ _ => 0
  | .pdRead => 9
  | .pdEdge _ _ => 0
  | .leBeginBind => 0
  | .leSetCommand _ _ => 0
  | .leAdvance => 1
  | .leSetConfig _ _ => 0
  | .leReadTelem _ => 5
  | .leReadState => 27

/-- The sum of the requested delays among some responses: the first data word of each OK response. -/
def requestedDelay : List (Status × List Word) → Nat
  | [] => 0
  | (.ok, d :: _) :: rest => d.toNat + requestedDelay rest
  | _ :: rest => requestedDelay rest

/-- The requested delays of a handshake in which the peer answers every exchange (42_link_binding.md R192). -/
def handshakeDelay (P : Params) : Nat :=
  3 * (P.tBindWrite.toNat + P.tBindRx.toNat + P.tBindRead.toNat) + P.tBindWrite.toNat + P.tBindRx.toNat +
    P.tLinkSettle.toNat

/-- The requested delays of one visit to a linked sub-step with `n` busy answers (43_link_linked.md R208). -/
def visitDelay (P : Params) (n : Nat) : Nat :=
  P.tTx.toNat + P.tAwaitBusy.toNat * n + P.tAwaitDone.toNat + 7 * P.tPoll.toNat

/-- The outputs `t` has beyond the `n` first. -/
def State.outputsAfter (t : State) (n : Nat) : List Output := t.log.drop n

/-- Edges after time `t`, one for each width, each that much later than the edge before it. -/
def pulseTrain (word t : Word) : List Word → List Event
  | [] => []
  | w :: ws => .edge word (t + w) :: pulseTrain word (t + w) ws

/-- LE.ADVANCE commands, one for each microsecond time, millisecond time and set of answers given. -/
def advanceTrain : List Inputs → List Event
  | [] => []
  | i :: is => .cmd (encode .leAdvance) i.nowUs i.nowMs i.draws :: advanceTrain is

/-- A run whose every step answers a next state. -/
abbrev RunsOn (n : Nat) (s t : State) : Prop :=
  Host.Core.run Sys2Proof.core n s = Host.Outcome.next (σ := State) (φ := Fault) (ρ := Refusal) t

end Sys2Proof.Machine
end

