-- ==== Sys2Proof/Certificates/Slice0/Obligations.lean ====
section
/-! DEFINITION. The statements for the provers, each a property of the machine that a numbered rule of spec/ states or
that follows from the rules its docstring names. -/

open Sys2Proof Sys2Proof.Machine

/-! ## Encoding -/

/-- Nine words written out from 30_encoding.md R82, R83, R98 decode to the nine operations. -/
def Obligations.SampleWordsDecode : Prop :=
  decode .cmd 0x01000102#32 = .instr (.pdSetup .line1 .falling) ∧
  decode .cmd 0x02000000#32 = .instr .pdRead ∧
  decode .edge 0x03000001#32 = .instr (.pdEdge .line0 .rising) ∧
  decode .cmd 0x10000000#32 = .instr .leBeginBind ∧
  decode .cmd 0x110105DC#32 = .instr (.leSetCommand .yaw 1500#16) ∧
  decode .cmd 0x12000000#32 = .instr .leAdvance ∧
  decode .cmd 0x130316FD#32 = .instr (.leSetConfig .vtxFreq 5885#16) ∧
  decode .cmd 0x14000001#32 = .instr (.leReadTelem .b) ∧
  decode .cmd 0x15000000#32 = .instr .leReadState

/-- 30_encoding.md R98: the word of every base form and of every pseudo-instruction's expansion. -/
def Obligations.EncodedWordsOfEveryForm : Prop :=
  (∀ l p : Byte, encode (.pdSetup (decodeLine l) (decodePol p)) =
    0x01000000#32 ||| l.setWidth 32 <<< 8 ||| p.setWidth 32) ∧
  encode .pdRead = 0x02000000#32 ∧
  (∀ l p : Byte, encode (.pdEdge (decodeLine l) (decodePol p)) =
    0x03000000#32 ||| l.setWidth 32 <<< 8 ||| p.setWidth 32) ∧
  encode .leBeginBind = 0x10000000#32 ∧
  encode .leAdvance = 0x12000000#32 ∧
  (∀ sel : BitVec 1, encode (.leReadTelem (decodeSel sel)) = 0x14000000#32 ||| sel.setWidth 32) ∧
  encode .leReadState = 0x15000000#32 ∧
  (∀ v : Half,
    encode (.leSetCommand .throttle v) = 0x11000000#32 ||| v.setWidth 32 ∧
    encode (.leSetCommand .yaw v) = 0x11010000#32 ||| v.setWidth 32 ∧
    encode (.leSetCommand .pitch v) = 0x11020000#32 ||| v.setWidth 32 ∧
    encode (.leSetCommand .roll v) = 0x11030000#32 ||| v.setWidth 32 ∧
    encode (.leSetCommand .flip v) = 0x11040000#32 ||| v.setWidth 32 ∧
    encode (.leSetCommand .light v) = 0x11050000#32 ||| v.setWidth 32 ∧
    encode (.leSetCommand .video v) = 0x11060000#32 ||| v.setWidth 32 ∧
    encode (.leSetConfig .forceBind v) = 0x13000000#32 ||| v.setWidth 32 ∧
    encode (.leSetConfig .extEnable v) = 0x13010000#32 ||| v.setWidth 32 ∧
    encode (.leSetConfig .txPower v) = 0x13020000#32 ||| v.setWidth 32 ∧
    encode (.leSetConfig .vtxFreq v) = 0x13030000#32 ||| v.setWidth 32)

/-- Decode and encode agree: every well-formed instruction's word, on its port, decodes to it (30_encoding.md R82, R83,
R84 to R87, R89, R90). -/
def Obligations.DecodeInvertsEncode : Prop :=
  ∀ i : Instr, i.wellFormed = true → decode i.port (encode i) = .instr i

/-- The other direction: a word that decodes to an instruction decodes to a well-formed one of that port, whose own
word is the given word with its reserved bits cleared (30_encoding.md R82, R88). -/
def Obligations.EncodeInvertsDecode : Prop :=
  ∀ (p : Port) (w : Word) (i : Instr), decode p w = .instr i →
    i.wellFormed = true ∧ i.port = p ∧ encode i = w &&& usedBits (opcodeField w)

/-- 30_encoding.md R88: reserved bits change neither what a word decodes to nor what the machine does. -/
def Obligations.ReservedBitsChangeNothing : Prop :=
  (∀ (p : Port) (w : Word), decode p (w &&& usedBits (opcodeField w)) = decode p w) ∧
  ∀ (s : State) (w us ms : Word) (d : Draws) (es : List Event),
    step { s with events := .cmd w us ms d :: es } =
      step { s with events := .cmd (w &&& usedBits (opcodeField w)) us ms d :: es } ∧
    step { s with events := .edge w us :: es } =
      step { s with events := .edge (w &&& usedBits (opcodeField w)) us :: es }

/-- 30_encoding.md R90: every word of the CMD port decodes to the row of its opcode or to ILLEGAL, every word of the
EDGE port to PD.EDGE or to nothing, and a word that is nothing changes no state and gets no response (only the event and
its time are consumed). -/
def Obligations.DecoderIsTotalByOpcode : Prop :=
  (∀ w : Word,
    if opcodeField w ∈ [0x01#8, 0x02#8, 0x10#8, 0x11#8, 0x12#8, 0x13#8, 0x14#8, 0x15#8] then
      ∃ i : Instr, decode .cmd w = .instr i ∧ i.opcode = opcodeField w
    else decode .cmd w = .illegal (opcodeField w)) ∧
  (∀ w : Word,
    if opcodeField w = 0x03#8 then ∃ l p, decode .edge w = .instr (.pdEdge l p)
    else decode .edge w = .discarded (opcodeField w)) ∧
  (∀ (s : State) (w us : Word) (es : List Event), opcodeField w ≠ 0x03#8 →
    step { s with events := .edge w us :: es } =
      .next { s with events := es, inputs := { s.inputs with nowUs := us } })

/-- 30_encoding.md R92, 60_exceptions.md R265: a reserved opcode on the CMD port changes no state, issues no driver
transaction and is answered (ILLEGAL, []). -/
def Obligations.ReservedOpcodeAnswersIllegal : Prop :=
  ∀ (s : State) (w us ms : Word) (d : Draws) (es : List Event),
    (opcodeField w).toNat = 0x00 ∨ (0x03 ≤ (opcodeField w).toNat ∧ (opcodeField w).toNat ≤ 0x0F) ∨
      0x16 ≤ (opcodeField w).toNat →
    step { s with events := .cmd w us ms d :: es } =
      .next { s with events := es, inputs := ⟨us, ms, d⟩, log := s.log ++ [.response .illegal []] }

/-! ## One step -/

/-- A step runs the decoded instruction: an event whose word decodes to `i` leaves the stream, its inputs become the
current ones, and the step is `exec i` there (20_memory.md R66; 30_encoding.md R80). -/
def Obligations.StepRunsTheDecodedInstruction : Prop :=
  (∀ (s : State) (w us ms : Word) (d : Draws) (es : List Event) (i : Instr), decode .cmd w = .instr i →
    step { s with events := .cmd w us ms d :: es } = exec i { s with events := es, inputs := ⟨us, ms, d⟩ }) ∧
  (∀ (s : State) (w us : Word) (es : List Event) (i : Instr), decode .edge w = .instr i →
    step { s with events := .edge w us :: es } =
      exec i { s with events := es, inputs := { s.inputs with nowUs := us } })

/-- A well-formed instruction's word placed with `withFetchWord` is what the next step runs, in the very state it was
placed in (30_encoding.md R80, R83). -/
def Obligations.PlacedWordRunsNext : Prop :=
  ∀ (s : State) (i : Instr), i.wellFormed = true → step (s.withFetchWord 32 (encode i).toNat) = exec i s

/-- 70_reset_and_hazards.md R290, R291: a RESET event gives every element its reset value, with no driver transaction
and no response (the inputs, the stream and the log, which are the model's own, go on). -/
def Obligations.ResetEventRestoresEveryElement : Prop :=
  ∀ (s : State) (es : List Event), step { s with events := .reset :: es } = .next {
    pd := { enabled := false, line := 0#1, polarity := .rising, lastEdgeTime := 0#32, index := 8#4,
            raw := #v[1500#16, 1500#16, 1500#16, 1500#16, 1500#16, 1500#16, 1500#16, 1500#16], frameValid := false,
            published := #v[1500#16, 1500#16, 1500#16, 1500#16, 1500#16, 1500#16, 1500#16, 1500#16], fresh := false }
    le := { phase := .idle, step := 0#4, awaitingWrite := false, tphase := .transmit, pollCount := 0#3,
            sessionId := 0#32, channel := 0#8, frameCount := 0#32, deadline := 0#32, deadlineActive := false,
            cmd := { thr := 0#8, yaw := 0x80#8, pitch := 0x80#8, roll := 0x80#8, flip := false, light := false,
                     video := false },
            telemA := #v[0#8, 0#8, 0#8, 0#8, 0#8, 0#8, 0#8, 0#8, 0#8, 0#8, 0#8, 0#8, 0#8, 0#8, 0#8, 0#8],
            telemB := #v[0#8, 0#8, 0#8, 0#8, 0#8, 0#8, 0#8, 0#8, 0#8, 0#8, 0#8, 0#8, 0#8, 0#8, 0#8, 0#8],
            telemValidA := false, telemValidB := false }
    cfg := { forceBind := false, extEnable := false, txPower := 0#8, vtxFreq := 0#16 }
    inputs := s.inputs
    events := es
    log := s.log }

/-- The state after reset holds the values of 70_reset_and_hazards.md R291 in every element of the block and is a legal
state of every invariant below; nothing has been put out. -/
def Obligations.ResetStateIsLegal : Prop :=
  State.reset.pd =
    { enabled := false, line := 0#1, polarity := .rising, lastEdgeTime := 0#32, index := 8#4,
      raw := Vector.replicate 8 1500#16, frameValid := false,
      published := Vector.replicate 8 1500#16, fresh := false } ∧
  State.reset.le =
    { phase := .idle, step := 0#4, awaitingWrite := false, tphase := .transmit, pollCount := 0#3,
      sessionId := 0#32, channel := 0#8, frameCount := 0#32, deadline := 0#32, deadlineActive := false,
      cmd := { thr := 0#8, yaw := 0x80#8, pitch := 0x80#8, roll := 0x80#8, flip := false, light := false,
               video := false },
      telemA := Vector.replicate 16 0x00#8, telemB := Vector.replicate 16 0x00#8,
      telemValidA := false, telemValidB := false } ∧
  State.reset.cfg = { forceBind := false, extEnable := false, txPower := 0#8, vtxFreq := 0#16 } ∧
  SequencerLegal State.reset.le ∧ PollLegal State.reset.le ∧ ChannelLegal Config.params State.reset.le ∧
  DeadlineLegal State.reset.le ∧ DecoderLegal State.reset.pd ∧ TelemetryLegal Config.params State.reset.le ∧
  State.reset.log = []

/-! ## Pulse Decoder -/

/-- 40_pulse_decoder.md R121, 60_exceptions.md R262: PD.SETUP by the operand bytes. Everything else of the state is
unchanged, capture state and the other binding's remains included. -/
def Obligations.SetupBindsOrRejects : Prop :=
  ∀ (s : State) (l p : Byte),
    exec (.pdSetup (decodeLine l) (decodePol p)) s =
      if (l = 0x00#8 ∨ l = 0x01#8) ∧ (p = 0x01#8 ∨ p = 0x02#8) then
        .next { s with
          pd := { s.pd with
            line := l.extractLsb' 0 1
            polarity := if p = 0x01#8 then .rising else .falling
            enabled := true }
          log := s.log ++ [.response .ok []] }
      else .next { s with log := s.log ++ [.response .configError []] }

/-- 40_pulse_decoder.md R120, R122 to R127: PD.EDGE by the operand bytes and the time, on natural numbers. No response;
the link engine and the configuration are untouched. -/
def Obligations.EdgeHandlerFollowsItsRule : Prop :=
  ∀ (s : State) (l p : Byte),
    exec (.pdEdge (decodeLine l) (decodePol p)) s = .next (
      if s.pd.enabled = true ∧ l.toNat = s.pd.line.toNat ∧ p = s.pd.polarity.code then
        let width := (s.inputs.nowUs.toNat + 2 ^ 32 - s.pd.lastEdgeTime.toNat) % 2 ^ 32
        if 2500 < width then
          { s with pd := { s.pd with
            lastEdgeTime := s.inputs.nowUs, fresh := s.pd.frameValid, frameValid := true, index := 0#4 } }
        else if h : s.pd.index.toNat < 8 then
          if 800 ≤ width ∧ width ≤ 2200 then
            { s with pd := { s.pd with
              lastEdgeTime := s.inputs.nowUs
              raw := s.pd.raw.set s.pd.index.toNat (BitVec.ofNat 16 width) h
              index := s.pd.index + 1#4 } }
          else
            { s with pd := { s.pd with
              lastEdgeTime := s.inputs.nowUs, frameValid := false, index := s.pd.index + 1#4 } }
        else { s with pd := { s.pd with lastEdgeTime := s.inputs.nowUs } }
      else s)

/-- 40_pulse_decoder.md R128; 30_encoding.md R94: PD.READ publishes the raw array, clears fresh, and answers the old
fresh, frameValid and the published values. Nothing else changes. -/
def Obligations.ReadPublishesRawAndClearsFresh : Prop :=
  ∀ s : State, exec .pdRead s = .next { s with
    pd := { s.pd with published := s.pd.raw, fresh := false }
    log := s.log ++ [.response .ok
      (BitVec.ofNat 32 ((if s.pd.fresh = true then 1 else 0) + (if s.pd.frameValid = true then 2 else 0)) ::
        s.pd.raw.toList.map (fun v => v.setWidth 32))] }

/-- A sync edge, eight pulses in range and a closing sync edge: the PD.READ that follows answers fresh with the eight
widths in order (source property S1; 40_pulse_decoder.md R122, R124, R125, R128). -/
def Obligations.EightValidPulsesReachTheReader : Prop :=
  ∀ (s : State) (word t0 gap us ms : Word) (d : Draws) (ws : List Word) (l : LineField) (p : PolField)
    (rest : List Event),
    decode .edge word = .instr (.pdEdge l p) → s.pd.qualifies l p = true →
    2500 < (t0 - s.pd.lastEdgeTime).toNat →
    ws.length = 8 → (∀ w ∈ ws, 800 ≤ w.toNat ∧ w.toNat ≤ 2200) → 2500 < gap.toNat →
    s.events = .edge word t0 :: pulseTrain word t0 (ws ++ [gap]) ++ [.cmd (encode .pdRead) us ms d] ++ rest →
    ∃ t : State, RunsOn 11 s t ∧ t.log = s.log ++ [.response .ok (3#32 :: ws)] ∧
      t.pd.published.toList = ws.map (fun w => w.setWidth 16) ∧ t.pd.fresh = false ∧ t.events = rest

/-- Whatever its number of pulses, a frame between two sync edges is reported fresh exactly when each of its first eight
pulses was in range, and its slots fill one by one up to eight (source property S2; 40_pulse_decoder.md R125, R127,
R129, R130). -/
def Obligations.FreshReportsTheFirstEightPulses : Prop :=
  ∀ (s : State) (word t0 gap : Word) (ws : List Word) (l : LineField) (p : PolField) (rest : List Event),
    decode .edge word = .instr (.pdEdge l p) → s.pd.qualifies l p = true →
    2500 < (t0 - s.pd.lastEdgeTime).toNat → (∀ w ∈ ws, w.toNat ≤ 2500) → 2500 < gap.toNat →
    s.events = .edge word t0 :: pulseTrain word t0 (ws ++ [gap]) ++ rest →
    (∃ u : State, RunsOn (ws.length + 1) s u ∧ u.pd.index.toNat = min ws.length 8 ∧ u.log = s.log) ∧
    ∃ t : State, RunsOn (ws.length + 2) s t ∧
      (t.pd.fresh = true ↔ ∀ w ∈ ws.take 8, 800 ≤ w.toNat ∧ w.toNat ≤ 2200) ∧
      t.pd.frameValid = true ∧ t.pd.index = 0#4 ∧ t.log = s.log ∧ t.events = rest

/-! ## Link Engine control -/

/-- 41_link_control.md R151, R155: LE.BEGIN_BIND, in every phase. -/
def Obligations.BeginBindStartsOrAborts : Prop :=
  ∀ s : State, exec .leBeginBind s =
    if s.inputs.draws.initOk = true then
      .next { s with
        le := { s.le with
          sessionId := s.inputs.draws.sid
          channel := Config.params.allowlist[s.inputs.draws.chan.toNat % 12]
          phase := .binding, step := 1#4, awaitingWrite := false, tphase := .transmit, pollCount := 0#3
          frameCount := 0#32, deadline := s.inputs.draws.timeout, deadlineActive := true }
        log := s.log ++ [.driver .init, .driver .computeTimeout, .response .ok []] }
    else
      .next { s with
        le := { s.le with phase := .idle, step := 0#4, awaitingWrite := false, deadlineActive := false }
        log := s.log ++ [.driver .init, .response .initFail []] }

/-- 41_link_control.md R156, R159, R160: LE.SET_COMMAND by the identifier byte; the axis formula is R157's. -/
def Obligations.SetCommandIngestsOneField : Prop :=
  ∀ (s : State) (id : Byte) (v : Half),
    let axis (lo : Nat) : Byte := BitVec.ofNat 8 ((min (max v.toNat lo) 2000 - lo) * 255 / (2000 - lo))
    let toggle : Bool := decide (1500 ≤ v.toNat)
    let answer (c : CommandSet) : Host.Outcome State Fault Refusal :=
      .next { s with le := { s.le with cmd := c }, log := s.log ++ [.response .ok []] }
    exec (.leSetCommand (decodeCommandId id) v) s =
      if id = 0x00#8 then answer { s.le.cmd with thr := axis Config.params.thrFloor }
      else if id = 0x01#8 then answer { s.le.cmd with yaw := axis 1000 }
      else if id = 0x02#8 then answer { s.le.cmd with pitch := axis 1000 }
      else if id = 0x03#8 then answer { s.le.cmd with roll := axis 1000 }
      else if id = 0x04#8 then answer { s.le.cmd with flip := toggle }
      else if id = 0x05#8 then answer { s.le.cmd with light := toggle }
      else if id = 0x06#8 then answer { s.le.cmd with video := toggle }
      else .next { s with log := s.log ++ [.response .badCommand []] }

/-- 41_link_control.md R157: the rescale stays within a byte, is monotone, clamps at both ends, and has the values the
rule lists. -/
def Obligations.RescaleIsMonotoneWithinAByte : Prop :=
  (∀ v lo hi : Nat, scale v lo hi = (min (max v lo) hi - lo) * 255 / (hi - lo)) ∧
  (∀ v lo hi : Nat, scale v lo hi ≤ 255) ∧
  (∀ v w lo hi : Nat, v ≤ w → scale v lo hi ≤ scale w lo hi) ∧
  (∀ v lo hi : Nat, v ≤ lo → lo < hi → scale v lo hi = 0) ∧
  (∀ v lo hi : Nat, hi ≤ v → lo < hi → scale v lo hi = 255) ∧
  scale 0 1000 2000 = 0 ∧ scale 1000 1000 2000 = 0 ∧ scale 1004 1000 2000 = 1 ∧ scale 1500 1000 2000 = 127 ∧
  scale 1996 1000 2000 = 253 ∧ scale 1999 1000 2000 = 254 ∧ scale 2000 1000 2000 = 255 ∧ scale 65535 1000 2000 = 255

/-- The throttle floor lies in [IN_MIN, IN_MAX), every such floor is one some parameters have, and an input at or below
it gives 0 (41_link_control.md R158). -/
def Obligations.ThrottleFloorIsLegalAndMapsToZero : Prop :=
  (∀ P : Params, 1000 ≤ P.thrFloor ∧ P.thrFloor < 2000) ∧
  (∀ n : Nat, 1000 ≤ n → n < 2000 → ∃ P : Params, P.thrFloor = n) ∧
  (∀ (P : Params) (v : Half), v.toNat ≤ P.thrFloor → scaleByte v P.thrFloor = 0#8)

/-- 41_link_control.md R161, R162: LE.SET_CONFIG by the field byte. -/
def Obligations.SetConfigWritesOneRegister : Prop :=
  ∀ (s : State) (id : Byte) (v : Half),
    let answer (c : ConfigRegs) : Host.Outcome State Fault Refusal :=
      .next { s with cfg := c, log := s.log ++ [.response .ok []] }
    exec (.leSetConfig (decodeConfigId id) v) s =
      if id = 0x00#8 then answer { s.cfg with forceBind := decide (v.toNat ≠ 0) }
      else if id = 0x01#8 then answer { s.cfg with extEnable := decide (v.toNat ≠ 0) }
      else if id = 0x02#8 then answer { s.cfg with txPower := BitVec.ofNat 8 (v.toNat % 256) }
      else if id = 0x03#8 then answer { s.cfg with vtxFreq := v }
      else .next { s with log := s.log ++ [.response .badField []] }

/-- 41_link_control.md R163; 20_memory.md R63, R72: LE.READ_TELEM answers the selected valid bit and buffer, four bytes to
a word with byte 4k + j of the buffer in bits [31 − 8j : 24 − 8j] of data word k + 1, and changes nothing. -/
def Obligations.ReadTelemAnswersTheBuffer : Prop :=
  ∀ (s : State) (sel : BitVec 1),
    ∃ (f : Frame) (words : List Word),
      exec (.leReadTelem (decodeSel sel)) s = .next { s with log := s.log ++ [.response .ok
        ((if (if sel = 0#1 then s.le.telemValidA else s.le.telemValidB) = true then 1#32 else 0#32) :: words)] } ∧
      f = (if sel = 0#1 then s.le.telemA else s.le.telemB) ∧ words.length = 4 ∧
      ∀ (k j : Nat) (hk : k < 4) (hj : j < 4),
        (words[k]?.map fun w => w.extractLsb' (24 - 8 * j) 8) = some (f[4 * k + j]'(by omega))

/-- 41_link_control.md R164; 20_memory.md R61: LE.READ_STATE answers the 27 words of the state blob and changes nothing;
every field of the blob is read back from its index and bits, and the unused bits are 0. -/
def Obligations.ReadStateAnswersEveryElement : Prop :=
  ∀ s : State,
    exec .leReadState s = .next { s with log := s.log ++ [.response .ok (stateWords s)] } ∧
    (stateWords s).length = 27 ∧
    (∃ w : Word, (stateWords s)[0]? = some w ∧ w.extractLsb' 0 2 = s.le.phase.code ∧ w.extractLsb' 4 4 = s.le.step ∧
      w[8] = s.le.awaitingWrite ∧ w.extractLsb' 12 2 = s.le.tphase.code ∧ w.extractLsb' 16 3 = s.le.pollCount ∧
      w[24] = s.le.deadlineActive ∧ w[25] = s.cfg.forceBind ∧ w[26] = s.cfg.extEnable ∧
      w &&& 0xF8F8CE0C#32 = 0#32) ∧
    (stateWords s)[1]? = some s.le.sessionId ∧
    (stateWords s)[2]? = some (s.le.channel.setWidth 32) ∧
    (stateWords s)[3]? = some s.le.frameCount ∧
    (stateWords s)[4]? = some s.le.deadline ∧
    (stateWords s)[5]? = some (s.le.cmd.roll ++ s.le.cmd.pitch ++ s.le.cmd.yaw ++ s.le.cmd.thr) ∧
    (∃ w : Word, (stateWords s)[6]? = some w ∧ w[0] = s.le.cmd.flip ∧ w[1] = s.le.cmd.light ∧ w[2] = s.le.cmd.video ∧
      w &&& 0xFFFFFFF8#32 = 0#32) ∧
    (stateWords s)[7]? = some (s.cfg.vtxFreq ++ 0#8 ++ s.cfg.txPower) ∧
    (∃ w : Word, (stateWords s)[8]? = some w ∧ w[0] = s.pd.enabled ∧ w.extractLsb' 1 1 = s.pd.line ∧
      w.extractLsb' 8 8 = s.pd.polarity.code ∧ w.extractLsb' 16 4 = s.pd.index ∧ w[20] = s.pd.frameValid ∧
      w[21] = s.pd.fresh ∧ w &&& 0xFFC000FC#32 = 0#32) ∧
    (stateWords s)[9]? = some s.pd.lastEdgeTime ∧
    (∀ (k : Nat) (h : k < 8), (stateWords s)[10 + k]? = some (s.pd.raw[k].setWidth 32) ∧
      (stateWords s)[18 + k]? = some (s.pd.published[k].setWidth 32)) ∧
    (∃ w : Word, (stateWords s)[26]? = some w ∧ w[0] = s.le.telemValidA ∧ w[1] = s.le.telemValidB ∧
      w &&& 0xFFFFFFFC#32 = 0#32)

/-! ## LE.ADVANCE -/

/-- 41_link_control.md R166: in Idle, (IDLE, [0]) and nothing else. -/
def Obligations.AdvanceInIdleAnswersIdle : Prop :=
  ∀ s : State, s.le.phase = .idle →
    exec .leAdvance s = .next { s with log := s.log ++ [.response .idle [0#32]] }

/-- 42_link_binding.md R182; 44_frames.md R234: BIND-WRITE, with the tag of each write step (that of step 3 is a parameter,
log entry 12, and so is the delay, log entry 11). -/
def Obligations.BindWriteSendsTheTaggedFrame : Prop :=
  ∀ s : State, s.le.phase = .binding → s.le.awaitingWrite = false → OddBindStep s.le.step → NoRebind s →
    exec .leAdvance s = .next { s with
      le := { s.le with awaitingWrite := true }
      log := s.log ++
        [.driver (.writeFrame
          (bindFrame Config.params
            (if s.le.step = 1#4 then 0x01#8 else if s.le.step = 3#4 then Config.params.bindTag3
              else if s.le.step = 5#4 then 0x01#8 else 0x09#8)
            s.le.channel s.le.sessionId) 16 s.le.channel),
          .response .ok [Config.params.tBindWrite]] }

/-- 42_link_binding.md R183: BIND-FOLLOWUP; the busy status is not queried. -/
def Obligations.BindFollowUpSwitchesToReceive : Prop :=
  ∀ s : State, s.le.phase = .binding → s.le.awaitingWrite = true → OddBindStep s.le.step → NoRebind s →
    exec .leAdvance s = .next { s with
      le := { s.le with awaitingWrite := false, step := s.le.step + 1#4 }
      log := s.log ++ [.driver (.strobe .rx), .response .ok [Config.params.tBindRx]] }

/-- 42_link_binding.md R184, R185: BIND-READ; a busy driver restarts at step 1, and step 4 installs the address bytes 2
to 5 of the received frame, byte 2 most significant. -/
def Obligations.BindReadRestartsOrAdvances : Prop :=
  ∀ s : State, s.le.phase = .binding → s.le.awaitingWrite = false →
    s.le.step = 2#4 ∨ s.le.step = 4#4 ∨ s.le.step = 6#4 → NoRebind s →
    exec .leAdvance s =
      if s.inputs.draws.busy = true then
        .next { s with
          le := { s.le with step := 1#4, awaitingWrite := false }
          log := s.log ++ [.driver .isBusy, .response .ok [Config.params.tBindRestart]] }
      else
        .next { s with
          le := { s.le with step := s.le.step + 1#4 }
          log := s.log ++ [.driver .isBusy, .driver (.readFrame 16)] ++
            (if s.le.step = 4#4 then
              [.driver (.writeId (s.inputs.draws.rx[2] ++ s.inputs.draws.rx[3] ++ s.inputs.draws.rx[4] ++
                s.inputs.draws.rx[5]))]
            else []) ++ [.response .ok [Config.params.tBindRead]] }

/-- 42_link_binding.md R186, R187, R188: BIND-RESOLVE. -/
def Obligations.BindResolveLinksOrFallsBack : Prop :=
  ∀ s : State, s.le.phase = .binding → s.le.awaitingWrite = false → s.le.step = 8#4 → NoRebind s →
    exec .leAdvance s =
      if s.inputs.draws.busy = true ∧ s.cfg.forceBind = false then
        .next { s with
          le := { s.le with step := 7#4, awaitingWrite := false }
          log := s.log ++ [.driver .isBusy, .response .ok [Config.params.tBindFail]] }
      else if s.inputs.draws.rx[1] = 9#8 ∨ s.cfg.forceBind = true then
        .next { s with
          le := { s.le with
            phase := .linked, step := 1#4, tphase := .transmit, pollCount := 0#3, awaitingWrite := false
            deadlineActive := false }
          log := s.log ++ [.driver .isBusy, .driver (.readFrame 16),
            .driver (.writeReg Config.params.codeRateReg Config.params.codeRateVal), .response .ok [Config.params.tLinkSettle]] }
      else
        .next { s with
          le := { s.le with step := 7#4, awaitingWrite := false }
          log := s.log ++ [.driver .isBusy, .driver (.readFrame 16), .response .ok [Config.params.tBindRetry]] }

/-- 42_link_binding.md R181: when the deadline fires, and what each policy then does; LE.ADVANCE runs with the machine's
own policy. -/
def Obligations.ExpiredDeadlineFollowsThePolicy : Prop :=
  (∀ (nowMs : Word) (le : LinkEngine), deadlineFires nowMs le = true ↔
    le.deadlineActive = true ∧ (nowMs.toNat + 2 ^ 32 - le.deadline.toNat) % 2 ^ 32 < 2 ^ 31) ∧
  (∀ s : State, exec .leAdvance s = advance Config.params s) ∧
  (∀ (P : Params) (s : State), P.deadlinePolicy = .ignore → s.le.phase = .binding →
    (OddBindStep s.le.step → s.le.awaitingWrite = false → advance P s = .next (bindWrite P s)) ∧
    (OddBindStep s.le.step → s.le.awaitingWrite = true → advance P s = .next (bindFollowUp P s)) ∧
    (s.le.step = 2#4 ∨ s.le.step = 4#4 ∨ s.le.step = 6#4 → s.le.awaitingWrite = false →
      advance P s = .next (bindRead P s)) ∧
    (s.le.step = 8#4 → s.le.awaitingWrite = false → advance P s = .next (bindResolve P s))) ∧
  (∀ (P : Params) (s : State), P.deadlinePolicy = .rebind → s.le.phase = .binding →
    deadlineFires s.inputs.nowMs s.le = true →
    advance P s =
      if s.inputs.draws.initOk = true then
        .next { s with
          le := { s.le with
            sessionId := s.inputs.draws.sid
            channel := P.allowlist[s.inputs.draws.chan.toNat % 12]
            phase := .binding, step := 1#4, awaitingWrite := false, tphase := .transmit, pollCount := 0#3
            frameCount := 0#32, deadline := s.inputs.draws.timeout, deadlineActive := true }
          log := s.log ++ [.driver .init, .driver .computeTimeout, .response .ok [0#32]] }
      else
        .next { s with
          le := { s.le with phase := .idle, step := 0#4, awaitingWrite := false, deadlineActive := false }
          log := s.log ++ [.driver .init, .response .initFail []] })

/-- Where R180's case table has no entry the model stops by name: its own choice for combinations that 10_state.md R42
says no operation produces (log entry 4). -/
def Obligations.UnlistedBindCombinationStops : Prop :=
  ∀ s : State, s.le.phase = .binding → NoRebind s →
    ((s.le.step = 0#4 ∨ 9 ≤ s.le.step.toNat) ∨ (s.le.awaitingWrite = true ∧ ¬ OddBindStep s.le.step)) →
    exec .leAdvance s = .fault .illegalSequencer

/-- 43_link_linked.md R201 to R204: LINK-TRANSMIT, in every sub-step. -/
def Obligations.LinkTransmitSendsOneFrame : Prop :=
  ∀ s : State, s.le.phase = .linked → s.le.tphase = .transmit →
    exec .leAdvance s = .next { s with
      le := { s.le with
        frameCount := if s.le.frameCount = 0xFFFFFFFF#32 then 0xFFFFFFFF#32 else s.le.frameCount + 1#32
        tphase := .awaitTransmit }
      log := s.log ++ (if s.le.step = 1#4 then [.driver (.setPower s.cfg.txPower)] else []) ++
        [.driver (.writeFrame (dataFrame Config.params s.le.cmd (s.le.frameCount.toNat + 1) s.cfg) 16
          (if s.le.step = 5#4 then s.le.channel + Config.params.hop else s.le.channel)),
          .response .ok [Config.params.tTx]] }

/-- 43_link_linked.md R205: LINK-AWAIT. -/
def Obligations.LinkAwaitPollsUntilReady : Prop :=
  ∀ s : State, s.le.phase = .linked → s.le.tphase = .awaitTransmit →
    exec .leAdvance s =
      if s.inputs.draws.busy = true then
        .next { s with log := s.log ++ [.driver .isBusy, .response .ok [Config.params.tAwaitBusy]] }
      else
        .next { s with
          le := { s.le with pollCount := 0#3, tphase := .pollReceive }
          log := s.log ++ [.driver .isBusy, .driver (.strobe .rx), .response .ok [Config.params.tAwaitDone]] }

/-- 43_link_linked.md R206, R207: LINK-POLL while fewer than POLLS polls are counted, which is every reachable state
(`Obligations.PollCountStaysBelowTheBudget`). -/
def Obligations.LinkPollCountsAndDecodes : Prop :=
  ∀ s : State, s.le.phase = .linked → s.le.tphase = .pollReceive → s.le.pollCount.toNat < 7 →
    let le' : LinkEngine :=
      if s.inputs.draws.busy = true then s.le else s.le.telemetryDecode Config.params s.inputs.draws.rx
    exec .leAdvance s = .next { s with
      le :=
        if s.le.pollCount = 6#3 then
          { le' with pollCount := 7#3, step := BitVec.ofNat 4 (s.le.step.toNat % 5 + 1), tphase := .transmit }
        else { le' with pollCount := s.le.pollCount + 1#3 }
      log := s.log ++
        (if s.inputs.draws.busy = true then [.driver .isBusy]
          else [.driver .isBusy, .driver (.readFrame 16), .driver (.strobe .rx)]) ++ [.response .ok [Config.params.tPoll]] }

/-- 41_link_control.md R168: from every legal state, LE.ADVANCE answers; outside Idle the answer is OK with one delay
word, but for the INIT_FAIL of a rebind. -/
def Obligations.AdvanceAnswersInEveryLegalState : Prop :=
  ∀ s : State, SequencerLegal s.le →
    ∃ (t : State) (txns : List DriverTxn) (st : Status) (data : List Word), exec .leAdvance s = .next t ∧
      t.log = s.log ++ txns.map .driver ++ [.response st data] ∧
      t.pd = s.pd ∧ t.cfg = s.cfg ∧ t.le.cmd = s.le.cmd ∧ t.inputs = s.inputs ∧ t.events = s.events ∧
      (s.le.phase ≠ .idle → (st = .ok ∧ data.length = 1) ∨
        (st = .initFail ∧ data = [] ∧ s.le.phase = .binding ∧ s.inputs.draws.initOk = false ∧
          Config.params.deadlinePolicy = .rebind ∧ deadlineFires s.inputs.nowMs s.le = true))

/-- A handshake with a peer that answers every exchange takes exactly 12 LE.ADVANCE invocations; its requested delays sum
to those of four writes, four follow-ups, three reads and the settling, 59500 µs at the default delays
(42_link_binding.md R192; 70_reset_and_hazards.md R300). -/
def Obligations.AnsweredHandshakeLinksInTwelve : Prop :=
  (∀ (a b : Byte) (fields : TelemField → FieldPlace) (pol : DeadlinePolicy),
    handshakeDelay (Config.defaults a b fields pol) = 59500) ∧
  ∀ (s : State) (ins : List Inputs) (rest : List Event),
    ins.length = 12 → s.events = advanceTrain ins ++ rest →
    s.le.phase = .binding → s.le.step = 1#4 → s.le.awaitingWrite = false →
    (∀ i ∈ ins, i.draws.busy = false ∧ deadlineFires i.nowMs s.le = false) →
    (∀ i, ins.getLast? = some i → i.draws.rx[1] = 9#8) →
    (∀ k < 12, ∃ u : State, RunsOn k s u ∧ u.le.phase = .binding) ∧
    ∃ t : State, RunsOn 12 s t ∧ t.le.phase = .linked ∧ t.le.step = 1#4 ∧ t.le.tphase = .transmit ∧
      t.le.sessionId = s.le.sessionId ∧ t.le.channel = s.le.channel ∧ t.events = rest ∧
      (responsesOf (t.outputsAfter s.log.length)).length = 12 ∧
      requestedDelay (responsesOf (t.outputsAfter s.log.length)) = handshakeDelay Config.params

/-- A peer that does not answer at step 2 sends the engine back to where it was: the three invocations of step 1, its
follow-up and step 2 leave the whole Link Engine unchanged, session and channel included (42_link_binding.md R189). -/
def Obligations.SilentPeerRestartsWithSameSession : Prop :=
  ∀ (s : State) (a b c : Inputs) (rest : List Event),
    s.events = advanceTrain [a, b, c] ++ rest →
    s.le.phase = .binding → s.le.step = 1#4 → s.le.awaitingWrite = false → c.draws.busy = true →
    deadlineFires a.nowMs s.le = false → deadlineFires b.nowMs s.le = false → deadlineFires c.nowMs s.le = false →
    ∃ t : State, RunsOn 3 s t ∧ t.le = s.le ∧ t.pd = s.pd ∧ t.cfg = s.cfg ∧ t.events = rest

/-- One visit to a linked sub-step: one transmission, any number of busy answers, seven polls, their requested delays
(13000 µs at the default delays), and then the next sub-step (43_link_linked.md R208, R210). -/
def Obligations.SubStepVisitTakesSevenPolls : Prop :=
  (∀ (a b : Byte) (fields : TelemField → FieldPlace) (pol : DeadlinePolicy) (n : Nat),
    visitDelay (Config.defaults a b fields pol) n = 13000) ∧
  ∀ (s : State) (tx ready : Inputs) (busies polls : List Inputs) (rest : List Event),
    s.le.phase = .linked → s.le.tphase = .transmit → 1 ≤ s.le.step.toNat → s.le.step.toNat ≤ 5 →
    (∀ i ∈ busies, i.draws.busy = true) → ready.draws.busy = false → polls.length = 7 →
    s.events = advanceTrain (tx :: busies ++ ready :: polls) ++ rest →
    ∃ t : State, RunsOn (busies.length + 9) s t ∧ t.le.phase = .linked ∧ t.le.tphase = .transmit ∧
      t.le.step.toNat = s.le.step.toNat % 5 + 1 ∧ t.le.pollCount = 7#3 ∧ t.events = rest ∧
      requestedDelay (responsesOf (t.outputsAfter s.log.length)) = visitDelay Config.params busies.length ∧
      (transactionsOf (t.outputsAfter s.log.length)).countP DriverTxn.isWriteFrame = 1

/-! ## Frames and telemetry -/

/-- 44_frames.md R233: the bytes of a bind frame, big-endian ids, and the checksum last. -/
def Obligations.BindFrameBytes : Prop :=
  ∀ (P : Params) (tag ch : Byte) (sid : Word),
    (bindFrame P tag ch sid).toList.take 15 =
      [tag, ch, sid.extractLsb' 24 8, sid.extractLsb' 16 8, sid.extractLsb' 8 8, sid.extractLsb' 0 8] ++
      P.bindConst.toList ++
      [P.txid.extractLsb' 24 8, P.txid.extractLsb' 16 8, P.txid.extractLsb' 8 8, P.txid.extractLsb' 0 8] ∧
    (bindFrame P tag ch sid)[15] = P.ck (bindFrame P tag ch sid).pop

/-- The bytes of a data frame under the offsets that 44_frames.md R235 gives as default, and of an extended frame under
those of R238; which of the two is built is R239. -/
def Obligations.DataFrameBytes : Prop :=
  ∀ (P : Params) (cmd : CommandSet) (k : Nat) (cfg : ConfigRegs),
    P.frameOffsets = Config.frameOffsetsDefault → (∀ i : Nat, P.dataFill i = 0x00#8) →
    (dataFrame P cmd k cfg).toList.take 15 =
      (if cfg.extEnable = true ∧ k = 100 then
        [P.modeExt, cfg.vtxFreq.extractLsb' 8 8, cfg.vtxFreq.extractLsb' 0 8, P.extSel]
      else [0x20#8, 0x00#8, cmd.thr, 0x00#8]) ++
      [if P.invertYaw = true then 255#8 - cmd.yaw else cmd.yaw, 0x00#8,
       if P.invertPitch = true then 255#8 - cmd.pitch else cmd.pitch, 0x00#8,
       if P.invertRoll = true then 255#8 - cmd.roll else cmd.roll, flagsByte P cmd k, P.dataConst,
       P.txid.extractLsb' 24 8, P.txid.extractLsb' 16 8, P.txid.extractLsb' 8 8, P.txid.extractLsb' 0 8] ∧
    (dataFrame P cmd k cfg)[15] = P.ck (dataFrame P cmd k cfg).pop

/-- 44_frames.md R236: the flags byte; in the grace frames it does not depend on the toggles. -/
def Obligations.FlagsFollowTogglesAfterGrace : Prop :=
  ∀ (P : Params) (cmd : CommandSet) (k : Nat),
    (k ≤ 100 → flagsByte P cmd k = P.flagsBase ||| P.flagLight ||| P.flagFlip) ∧
    (100 < k → flagsByte P cmd k =
      P.flagsBase ||| (if cmd.light = true then P.flagLight else 0#8) |||
        (if cmd.flip = true then P.flagFlip else 0#8) ||| (if cmd.video = true then P.flagVideo else 0#8))

/-- 44_frames.md R244, under the spec's defaults: the CommandSet is recovered from a normal data frame. -/
def Obligations.DataFrameRoundTrip : Prop :=
  ∀ (a b : Byte) (fields : TelemField → FieldPlace) (pol : DeadlinePolicy) (cmd : CommandSet) (k : Nat)
    (cfg : ConfigRegs), ¬ (cfg.extEnable = true ∧ k = 100) →
    let f := dataFrame (Config.defaults a b fields pol) cmd k cfg
    cmd.thr = f[2] ∧ cmd.yaw = 255#8 - f[4] ∧ cmd.pitch = 255#8 - f[6] ∧ cmd.roll = f[8] ∧
    (100 < k → cmd.light = f[9][2] ∧ cmd.flip = f[9][3] ∧ cmd.video = f[9][0])

/-- 44_frames.md R232, R245: CK and CKV keep the law R232 asks of them, so every frame the block builds validates. -/
def Obligations.EveryBuiltFrameValidates : Prop :=
  (∀ P : Params, P.ChecksumLaw) ∧
  (∀ (P : Params) (tag ch : Byte) (sid : Word), P.verify (bindFrame P tag ch sid) = true) ∧
  (∀ (P : Params) (cmd : CommandSet) (k : Nat) (cfg : ConfigRegs), P.verify (dataFrame P cmd k cfg) = true)

/-- The default CK of 44_frames.md R231 makes the 16 bytes sum to 0 modulo 256, and the default CKV of R232 accepts
exactly those frames. -/
def Obligations.DefaultChecksumIsTheByteSum : Prop :=
  ∀ (a b : Byte) (fields : TelemField → FieldPlace) (pol : DeadlinePolicy),
    (∀ p : Payload, ((framed (Config.defaults a b fields pol) p).toList.map BitVec.toNat).sum % 256 = 0) ∧
    (∀ f : Frame, (Config.defaults a b fields pol).verify f = true ↔ (f.toList.map BitVec.toNat).sum % 256 = 0)

/-- Every frame any step transmits is 16 bytes long and validates under the machine's own checksum (44_frames.md R230,
R245; 60_exceptions.md R277). -/
def Obligations.EveryTransmittedFrameValidates : Prop :=
  ∀ (s t : State) (f : Frame) (n : Nat) (ch : Byte), step s = .next t →
    Output.driver (.writeFrame f n ch) ∈ t.outputsAfter s.log.length → n = 16 ∧ Config.params.verify f = true

/-- 44_frames.md R240, R242: the telemetry decoder; the two tags differ. -/
def Obligations.TelemetryDecoderKeepsValidKnownFrames : Prop :=
  (∀ P : Params, P.tagA ≠ P.tagB) ∧
  (∀ (P : Params) (rx : Frame) (le : LinkEngine), P.verify rx = true → rx[0] = P.tagA →
    le.telemetryDecode P rx = { le with telemA := rx, telemValidA := true }) ∧
  (∀ (P : Params) (rx : Frame) (le : LinkEngine), P.verify rx = true → rx[0] = P.tagB →
    le.telemetryDecode P rx = { le with telemB := rx, telemValidB := true }) ∧
  (∀ (P : Params) (rx : Frame) (le : LinkEngine),
    P.verify rx = false ∨ (rx[0] ≠ P.tagA ∧ rx[0] ≠ P.tagB) → le.telemetryDecode P rx = le)

/-! ## Invariants: from every state that meets them, not only from reset -/

/-- 10_state.md R42: no step produces an illegal combination of the sequencer. -/
def Obligations.SequencerStaysLegal : Prop :=
  ∀ s t : State, SequencerLegal s.le → step s = .next t → SequencerLegal t.le

/-- While polls are outstanding fewer than seven are counted (43_link_linked.md R207, R210). -/
def Obligations.PollCountStaysBelowTheBudget : Prop :=
  ∀ s t : State, PollLegal s.le → step s = .next t → PollLegal t.le

/-- Outside Idle the channel is an element of the allowlist (10_state.md R38), and the deadline is active exactly while
binding (10_state.md R40; 43_link_linked.md R209). -/
def Obligations.ChannelAndDeadlineStayLegal : Prop :=
  ∀ s t : State, ChannelLegal Config.params s.le → DeadlineLegal s.le → step s = .next t →
    ChannelLegal Config.params t.le ∧ DeadlineLegal t.le

/-- 10_state.md R30: every channel entry is PUB_INIT or a width in range; the index stays 0 to 8 (R25). -/
def Obligations.DecoderStaysLegal : Prop :=
  ∀ s t : State, DecoderLegal s.pd → step s = .next t → DecoderLegal t.pd

/-- A telemetry buffer holds zeros until a frame of its tag validated, and from then on a validated frame of its tag
(10_state.md R48; 44_frames.md R243). -/
def Obligations.TelemetryStaysValidated : Prop :=
  ∀ s t : State, TelemetryLegal Config.params s.le → step s = .next t → TelemetryLegal Config.params t.le

/-- From a legal sequencer every step answers a next state; so from reset no stream of events ever stops the machine
(60_exceptions.md R261: no unrecoverable condition; 10_state.md R42). -/
def Obligations.MachineNeverStops : Prop :=
  (∀ s : State, SequencerLegal s.le → ∃ t : State, step s = .next t) ∧
  (∀ (es : List Event) (k : Nat), ∃ t : State, RunsOn k { State.reset with events := es } t ∧ SequencerLegal t.le)

/-! ## Rules of the whole machine -/

/-- Every register of the block is written only by the operations 10_state.md names: the Pulse Decoder's (R23 to R29), the
Link Engine's (R32 to R41), the configuration's (R43 to R46) and the telemetry buffers (R48). -/
def Obligations.EveryRegisterHasItsWriter : Prop :=
  ∀ (i : Instr) (s t : State), exec i s = .next t →
    (t.pd.enabled ≠ s.pd.enabled ∨ t.pd.line ≠ s.pd.line ∨ t.pd.polarity ≠ s.pd.polarity → ∃ l p, i = .pdSetup l p) ∧
    (t.pd.lastEdgeTime ≠ s.pd.lastEdgeTime ∨ t.pd.index ≠ s.pd.index ∨ t.pd.raw ≠ s.pd.raw ∨
      t.pd.frameValid ≠ s.pd.frameValid → ∃ l p, i = .pdEdge l p) ∧
    (t.pd.published ≠ s.pd.published → i = .pdRead) ∧
    (t.pd.fresh ≠ s.pd.fresh → i = .pdRead ∨ ∃ l p, i = .pdEdge l p) ∧
    (t.le.cmd ≠ s.le.cmd → ∃ id v, i = .leSetCommand id v) ∧
    (t.cfg ≠ s.cfg → ∃ id v, i = .leSetConfig id v) ∧
    (t.le.telemA ≠ s.le.telemA ∨ t.le.telemB ≠ s.le.telemB ∨ t.le.telemValidA ≠ s.le.telemValidA ∨
      t.le.telemValidB ≠ s.le.telemValidB →
      i = .leAdvance ∧ s.le.phase = .linked ∧ s.le.tphase = .pollReceive ∧ s.inputs.draws.busy = false) ∧
    (t.le.phase ≠ s.le.phase ∨ t.le.step ≠ s.le.step ∨ t.le.awaitingWrite ≠ s.le.awaitingWrite ∨
      t.le.tphase ≠ s.le.tphase ∨ t.le.pollCount ≠ s.le.pollCount ∨ t.le.frameCount ≠ s.le.frameCount ∨
      t.le.deadline ≠ s.le.deadline ∨ t.le.deadlineActive ≠ s.le.deadlineActive ∨
      t.le.sessionId ≠ s.le.sessionId ∨ t.le.channel ≠ s.le.channel → i = .leBeginBind ∨ i = .leAdvance) ∧
    t.inputs = s.inputs ∧ t.events = s.events

/-- The session id and the channel change only at a bind attempt that passed driver Init: LE.BEGIN_BIND or a deadline
rebind; they then are the draws (41_link_control.md R152, R153). -/
def Obligations.SessionChangesOnlyAtABind : Prop :=
  ∀ (i : Instr) (s t : State), exec i s = .next t →
    t.le.sessionId ≠ s.le.sessionId ∨ t.le.channel ≠ s.le.channel →
    s.inputs.draws.initOk = true ∧ t.le.sessionId = s.inputs.draws.sid ∧
    t.le.channel = Config.params.allowlist[s.inputs.draws.chan.toNat % 12] ∧
    (i = .leBeginBind ∨ (i = .leAdvance ∧ s.le.phase = .binding ∧ Config.params.deadlinePolicy = .rebind ∧
      deadlineFires s.inputs.nowMs s.le = true))

/-- 43_link_linked.md R209: nothing but LE.BEGIN_BIND leaves Linked, whatever the driver answers. -/
def Obligations.OnlyBeginBindLeavesLinked : Prop :=
  ∀ (i : Instr) (s t : State), exec i s = .next t → s.le.phase = .linked → t.le.phase ≠ .linked → i = .leBeginBind

/-- 42_link_binding.md R190: write steps stay or move forward by one, read steps move forward by one or back to 1, step 8
links or goes back to 7. -/
def Obligations.BindStepsMoveForwardOrBack : Prop :=
  ∀ s t : State, s.le.phase = .binding → NoRebind s → exec .leAdvance s = .next t →
    (OddBindStep s.le.step ∧ t.le.phase = .binding ∧
      (t.le.step = s.le.step ∨ t.le.step.toNat = s.le.step.toNat + 1)) ∨
    ((s.le.step = 2#4 ∨ s.le.step = 4#4 ∨ s.le.step = 6#4) ∧ t.le.phase = .binding ∧
      (t.le.step = 1#4 ∨ t.le.step.toNat = s.le.step.toNat + 1)) ∨
    (s.le.step = 8#4 ∧ ((t.le.phase = .binding ∧ t.le.step = 7#4) ∨ (t.le.phase = .linked ∧ t.le.step = 1#4)))

/-- The frame counter only restarts at 0 with a bind attempt, or counts one frame up to its saturation at 2^32 − 1
(10_state.md R39; 43_link_linked.md R204). -/
def Obligations.FrameCounterCountsAndSaturates : Prop :=
  ∀ (i : Instr) (s t : State), exec i s = .next t → t.le.frameCount ≠ s.le.frameCount →
    (t.le.frameCount = 0#32 ∧ t.le.phase = .binding ∧ s.inputs.draws.initOk = true) ∨
    (i = .leAdvance ∧ s.le.phase = .linked ∧ s.le.tphase = .transmit ∧ s.le.frameCount ≠ 0xFFFFFFFF#32 ∧
      t.le.frameCount.toNat = s.le.frameCount.toNat + 1)

/-- 30_encoding.md R93: every command but PD.EDGE is answered by exactly one response, after its driver transactions,
with the data length of its opcode; PD.EDGE puts nothing out. -/
def Obligations.ResponseDataLengths : Prop :=
  (∀ (i : Instr) (s t : State), i.port = .cmd → exec i s = .next t →
    ∃ (txns : List DriverTxn) (st : Status) (data : List Word),
      t.log = s.log ++ txns.map .driver ++ [.response st data] ∧
      (st = .ok → data.length = okDataLength i) ∧
      (st ≠ .ok → data = [] ∨ (i = .leAdvance ∧ st = .idle ∧ data = [0#32]))) ∧
  (∀ (l : LineField) (p : PolField) (s t : State), exec (.pdEdge l p) s = .next t → t.log = s.log)

/-- 41_link_control.md R167; 60_exceptions.md R277, decision D39: a step appends to the log, asks the driver's busy
status at most once, reads at most one frame, and never strobes standby. -/
def Obligations.StepQueriesBusyAtMostOnce : Prop :=
  ∀ s t : State, step s = .next t →
    ∃ out : List Output, t.log = s.log ++ out ∧
      (transactionsOf out).count .isBusy ≤ 1 ∧ (transactionsOf out).count (.readFrame 16) ≤ 1 ∧
      DriverTxn.strobe .standby ∉ transactionsOf out

/-- 00_scope.md R3: the two units share no state. What the Pulse Decoder becomes does not depend on the Link Engine, the
configuration, the millisecond clock or the driver; what the Link Engine and the configuration become, and every driver
transaction, do not depend on the Pulse Decoder. -/
def Obligations.UnitsShareNothing : Prop :=
  (∀ s s' t t' : State, s.pd = s'.pd → s.events = s'.events → step s = .next t → step s' = .next t' → t.pd = t'.pd) ∧
  (∀ s s' t t' : State, s.le = s'.le → s.cfg = s'.cfg → s.events = s'.events → step s = .next t →
    step s' = .next t' → t.le = t'.le ∧ t.cfg = t'.cfg ∧
    transactionsOf (t.outputsAfter s.log.length) = transactionsOf (t'.outputsAfter s'.log.length))

/-! ## Frames at every lawful choice of the offsets -/

/-- 44_frames.md R235, R238, 20_memory.md R62, whatever the offsets. A normal data frame begins with MODE_NORMAL and carries
every field at its own offset, each once, the transmitter id big-endian, the fill elsewhere and the checksum last. The
extended frame is the normal one of the same ordinal with the mode byte overridden and bytes 1 to 3 replaced by the video
frequency, big-endian, and the selector; it does not carry the throttle. The offsets are any that keep the fields apart,
the throttle in bytes 1 to 3 and the other data fields in bytes 4 to 14 (the model's reading, log entries 6 and 19). -/
def Obligations.DataAndExtendedFramesCarryTheirFields : Prop :=
  (∀ (P : Params) (cmd : CommandSet) (k : Nat) (cfg : ConfigRegs), ¬ (cfg.extEnable = true ∧ k = 100) →
    let f := dataFrame P cmd k cfg
    let o := P.frameOffsets
    f[0] = 0x20#8 ∧
    f.toList[o.thr]? = some cmd.thr ∧
    f.toList[o.yaw]? = some (if P.invertYaw = true then 255#8 - cmd.yaw else cmd.yaw) ∧
    f.toList[o.pitch]? = some (if P.invertPitch = true then 255#8 - cmd.pitch else cmd.pitch) ∧
    f.toList[o.roll]? = some (if P.invertRoll = true then 255#8 - cmd.roll else cmd.roll) ∧
    f.toList[o.flags]? = some (flagsByte P cmd k) ∧
    f.toList[o.dataConst]? = some P.dataConst ∧
    f.toList[o.txid]? = some (P.txid.extractLsb' 24 8) ∧
    f.toList[o.txid + 1]? = some (P.txid.extractLsb' 16 8) ∧
    f.toList[o.txid + 2]? = some (P.txid.extractLsb' 8 8) ∧
    f.toList[o.txid + 3]? = some (P.txid.extractLsb' 0 8) ∧
    (∀ i : Nat, 1 ≤ i → i ≤ 14 → i ∉ o.thr :: o.tail → f.toList[i]? = some (P.dataFill i)) ∧
    f[15] = P.ck f.pop) ∧
  (∀ (P : Params) (cmd : CommandSet) (cfg : ConfigRegs), cfg.extEnable = true →
    let f := dataFrame P cmd 100 cfg
    let n := dataFrame P cmd 100 { cfg with extEnable := false }
    let o := P.frameOffsets
    f[0] = P.modeExt ∧
    f.toList[o.vtx]? = some (cfg.vtxFreq.extractLsb' 8 8) ∧
    f.toList[o.vtx + 1]? = some (cfg.vtxFreq.extractLsb' 0 8) ∧
    f.toList[o.sel]? = some P.extSel ∧
    (o.vtx = 1 ∧ o.sel = 3 ∨ o.vtx = 2 ∧ o.sel = 1) ∧
    (∀ i : Nat, 4 ≤ i → i ≤ 14 → f.toList[i]? = n.toList[i]?) ∧
    (∀ v : Byte, dataFrame P { cmd with thr := v } 100 cfg = f) ∧
    f[15] = P.ck f.pop) ∧
  (∀ P : Params, let o := P.frameOffsets
    (1 ≤ o.thr ∧ o.thr ≤ 3) ∧ o.tail.Nodup ∧ (∀ i ∈ o.tail, 4 ≤ i ∧ i ≤ 14)) ∧
  (∀ o : FrameOffsets, o.Lawful → ∃ P : Params, P.frameOffsets = o)
end

