-- ==== Sys2Proof/Laws/Decode.lean ====
section
/-! SUPPORT. The fields of each format's word, and the operand codes: what encoding one and decoding it again gives. -/
namespace Sys2Proof

/-- A field of an appended word that lies in the low part. -/
theorem extractLsb'_append_low {n m : Nat} (x : BitVec n) (y : BitVec m) (start len : Nat) (h : start + len ≤ m) :
    (x ++ y).extractLsb' start len = y.extractLsb' start len := by
  apply BitVec.eq_of_getLsbD_eq
  intro i hi
  simp only [BitVec.getLsbD_extractLsb', BitVec.getLsbD_append, hi, decide_true, Bool.true_and]
  rw [if_pos (by omega)]

/-- A field of an appended word that lies in the high part. -/
theorem extractLsb'_append_high {n m : Nat} (x : BitVec n) (y : BitVec m) (start len : Nat) (h : m ≤ start) :
    (x ++ y).extractLsb' start len = x.extractLsb' (start - m) len := by
  apply BitVec.eq_of_getLsbD_eq
  intro i hi
  simp only [BitVec.getLsbD_extractLsb', BitVec.getLsbD_append, hi, decide_true, Bool.true_and]
  rw [if_neg (by omega)]
  congr 1
  omega

/-- A whole word is its own field. -/
theorem extractLsb'_whole {n : Nat} (x : BitVec n) : x.extractLsb' 0 n = x := by simp

@[simp] theorem opcodeField_formatN (op : Byte) : opcodeField (formatN op) = op := by
  unfold opcodeField formatN
  rw [extractLsb'_append_high _ _ _ _ (by omega)]; simp

@[simp] theorem opcodeField_formatS (op line pol : Byte) : opcodeField (formatS op line pol) = op := by
  unfold opcodeField formatS
  rw [extractLsb'_append_high _ _ _ _ (by omega), extractLsb'_append_high _ _ _ _ (by omega),
    extractLsb'_append_high _ _ _ _ (by omega)]; simp

@[simp] theorem lineField_formatS (op line pol : Byte) : lineField (formatS op line pol) = line := by
  unfold lineField formatS
  rw [extractLsb'_append_high _ _ _ _ (by omega), extractLsb'_append_low _ _ _ _ (by omega)]; simp

@[simp] theorem polField_formatS (op line pol : Byte) : polField (formatS op line pol) = pol := by
  unfold polField formatS
  rw [extractLsb'_append_low _ _ _ _ (by omega)]; simp

@[simp] theorem opcodeField_formatK (op id : Byte) (value : Half) : opcodeField (formatK op id value) = op := by
  unfold opcodeField formatK
  rw [extractLsb'_append_high _ _ _ _ (by omega), extractLsb'_append_high _ _ _ _ (by omega)]; simp

@[simp] theorem idField_formatK (op id : Byte) (value : Half) : idField (formatK op id value) = id := by
  unfold idField formatK
  rw [extractLsb'_append_high _ _ _ _ (by omega), extractLsb'_append_low _ _ _ _ (by omega)]; simp

@[simp] theorem valueField_formatK (op id : Byte) (value : Half) : valueField (formatK op id value) = value := by
  unfold valueField formatK
  rw [extractLsb'_append_low _ _ _ _ (by omega)]; simp

@[simp] theorem opcodeField_formatT (op : Byte) (sel : BitVec 1) : opcodeField (formatT op sel) = op := by
  unfold opcodeField formatT
  rw [extractLsb'_append_high _ _ _ _ (by omega), extractLsb'_append_high _ _ _ _ (by omega)]; simp

@[simp] theorem selField_formatT (op : Byte) (sel : BitVec 1) : selField (formatT op sel) = sel := by
  unfold selField formatT
  rw [extractLsb'_append_low _ _ _ _ (by omega)]; simp

theorem decodeLine_code {x : LineField} (h : x.wellFormed = true) : decodeLine x.code = x := by
  cases x with
  | line0 => rfl
  | line1 => rfl
  | invalid c =>
    have hc : 2 ≤ c.toNat := by simpa [LineField.wellFormed] using h
    show decodeLine c = .invalid c
    unfold decodeLine
    rw [if_neg (by rintro rfl; simp at hc), if_neg (by rintro rfl; simp at hc)]

theorem decodePol_code {x : PolField} (h : x.wellFormed = true) : decodePol x.code = x := by
  cases x with
  | rising => rfl
  | falling => rfl
  | invalid c =>
    have hc : c.toNat ≠ 1 ∧ c.toNat ≠ 2 := by simpa [PolField.wellFormed] using h
    show decodePol c = .invalid c
    unfold decodePol
    rw [if_neg (by rintro rfl; simp at hc), if_neg (by rintro rfl; simp at hc)]

theorem decodeCommandId_code {x : CommandId} (h : x.wellFormed = true) : decodeCommandId x.code = x := by
  cases x with
  | unrecognized c =>
    have hc : 7 ≤ c.toNat := by simpa [CommandId.wellFormed] using h
    show decodeCommandId c = .unrecognized c
    unfold decodeCommandId
    rw [if_neg (by rintro rfl; simp at hc), if_neg (by rintro rfl; simp at hc), if_neg (by rintro rfl; simp at hc),
      if_neg (by rintro rfl; simp at hc), if_neg (by rintro rfl; simp at hc), if_neg (by rintro rfl; simp at hc),
      if_neg (by rintro rfl; simp at hc)]
  | throttle => rfl
  | yaw => rfl
  | pitch => rfl
  | roll => rfl
  | flip => rfl
  | light => rfl
  | video => rfl

theorem decodeConfigId_code {x : ConfigId} (h : x.wellFormed = true) : decodeConfigId x.code = x := by
  cases x with
  | unrecognized c =>
    have hc : 4 ≤ c.toNat := by simpa [ConfigId.wellFormed] using h
    show decodeConfigId c = .unrecognized c
    unfold decodeConfigId
    rw [if_neg (by rintro rfl; simp at hc), if_neg (by rintro rfl; simp at hc), if_neg (by rintro rfl; simp at hc),
      if_neg (by rintro rfl; simp at hc)]
  | forceBind => rfl
  | extEnable => rfl
  | txPower => rfl
  | vtxFreq => rfl

theorem decodeSel_code (x : TelemBuf) : decodeSel x.code = x := by cases x <;> rfl

theorem decodeLine_wellFormed (c : Byte) : (decodeLine c).wellFormed = true := by
  unfold decodeLine
  split_ifs with h0 h1
  · rfl
  · rfl
  · have : c.toNat ≠ 0 := fun h => h0 (BitVec.eq_of_toNat_eq (by simpa using h))
    have : c.toNat ≠ 1 := fun h => h1 (BitVec.eq_of_toNat_eq (by simpa using h))
    simp only [LineField.wellFormed, decide_eq_true_eq]; omega

theorem decodePol_wellFormed (c : Byte) : (decodePol c).wellFormed = true := by
  unfold decodePol
  split_ifs with h1 h2
  · rfl
  · rfl
  · have : c.toNat ≠ 1 := fun h => h1 (BitVec.eq_of_toNat_eq (by simpa using h))
    have : c.toNat ≠ 2 := fun h => h2 (BitVec.eq_of_toNat_eq (by simpa using h))
    simp only [PolField.wellFormed, decide_eq_true_eq]; omega

end Sys2Proof
end

