-- ==== Sys2Proof/Laws/State.lean ====
section
/-! SUPPORT. One lemma per field per state update, so that no proof unfolds a record update. -/
namespace Sys2Proof.Machine

variable (s : State) (t : DriverTxn) (st : Status) (d : List Word)

@[simp] theorem State.emit_pd : (s.emit t).pd = s.pd := rfl
@[simp] theorem State.emit_le : (s.emit t).le = s.le := rfl
@[simp] theorem State.emit_cfg : (s.emit t).cfg = s.cfg := rfl
@[simp] theorem State.emit_inputs : (s.emit t).inputs = s.inputs := rfl
@[simp] theorem State.emit_events : (s.emit t).events = s.events := rfl
@[simp] theorem State.emit_log : (s.emit t).log = s.log ++ [.driver t] := rfl

@[simp] theorem State.respond_pd : (s.respond st d).pd = s.pd := rfl
@[simp] theorem State.respond_le : (s.respond st d).le = s.le := rfl
@[simp] theorem State.respond_cfg : (s.respond st d).cfg = s.cfg := rfl
@[simp] theorem State.respond_inputs : (s.respond st d).inputs = s.inputs := rfl
@[simp] theorem State.respond_events : (s.respond st d).events = s.events := rfl
@[simp] theorem State.respond_log : (s.respond st d).log = s.log ++ [.response st d] := rfl

@[simp] theorem State.raise_pd : (s.raise st).pd = s.pd := rfl
@[simp] theorem State.raise_le : (s.raise st).le = s.le := rfl
@[simp] theorem State.raise_cfg : (s.raise st).cfg = s.cfg := rfl
@[simp] theorem State.raise_inputs : (s.raise st).inputs = s.inputs := rfl
@[simp] theorem State.raise_events : (s.raise st).events = s.events := rfl
@[simp] theorem State.raise_log : (s.raise st).log = s.log ++ [.response st []] := rfl

variable (us ms : Word) (dr : Draws)

@[simp] theorem State.latchCmd_pd : (s.latchCmd us ms dr).pd = s.pd := rfl
@[simp] theorem State.latchCmd_le : (s.latchCmd us ms dr).le = s.le := rfl
@[simp] theorem State.latchCmd_cfg : (s.latchCmd us ms dr).cfg = s.cfg := rfl
@[simp] theorem State.latchCmd_inputs : (s.latchCmd us ms dr).inputs = ⟨us, ms, dr⟩ := rfl
@[simp] theorem State.latchCmd_events : (s.latchCmd us ms dr).events = s.events := rfl
@[simp] theorem State.latchCmd_log : (s.latchCmd us ms dr).log = s.log := rfl

@[simp] theorem State.latchEdge_pd : (s.latchEdge us).pd = s.pd := rfl
@[simp] theorem State.latchEdge_le : (s.latchEdge us).le = s.le := rfl
@[simp] theorem State.latchEdge_cfg : (s.latchEdge us).cfg = s.cfg := rfl
@[simp] theorem State.latchEdge_inputs : (s.latchEdge us).inputs = { s.inputs with nowUs := us } := rfl
@[simp] theorem State.latchEdge_events : (s.latchEdge us).events = s.events := rfl
@[simp] theorem State.latchEdge_log : (s.latchEdge us).log = s.log := rfl

@[simp] theorem State.resetEvent_pd : s.resetEvent.pd = .reset := rfl
@[simp] theorem State.resetEvent_le : s.resetEvent.le = .reset := rfl
@[simp] theorem State.resetEvent_cfg : s.resetEvent.cfg = .reset := rfl
@[simp] theorem State.resetEvent_inputs : s.resetEvent.inputs = s.inputs := rfl
@[simp] theorem State.resetEvent_events : s.resetEvent.events = s.events := rfl
@[simp] theorem State.resetEvent_log : s.resetEvent.log = s.log := rfl

end Sys2Proof.Machine
end

