-- ==== Sys2Proof/Laws/Ops.lean ====
section
/-! SUPPORT. What each shared operation does, said once as one flat state, and the inversions of LE.ADVANCE and of one
step: proofs cite these and unfold nothing. -/
namespace Sys2Proof.Machine

/-- A bind attempt whose driver Init succeeds. -/
theorem beginBind_of_initOk {P : Params} {d : List Word} {s : State} (h : s.inputs.draws.initOk = true) :
    s.beginBind P d = { s with
      le := s.le.startAttempt P s.inputs.draws
      log := s.log ++ [.driver .init, .driver .computeTimeout, .response .ok d] } := by
  simp [State.beginBind, h, State.emit, State.respond]

/-- A bind attempt whose driver Init fails. -/
theorem beginBind_of_initFail {P : Params} {d : List Word} {s : State} (h : s.inputs.draws.initOk = false) :
    s.beginBind P d = { s with
      le := s.le.abortAttempt
      log := s.log ++ [.driver .init, .response .initFail []] } := by
  simp [State.beginBind, h, State.emit, State.respond]

theorem bindWrite_eq (P : Params) (s : State) :
    bindWrite P s = { s with
      le := { s.le with awaitingWrite := true }
      log := s.log ++ [.driver (.writeFrame (bindFrame P (bindTag P s.le.step) s.le.channel s.le.sessionId) 16 s.le.channel),
        .response .ok [P.tBindWrite]] } := by
  simp [bindWrite, State.emit, State.respond]

theorem bindFollowUp_eq (P : Params) (s : State) :
    bindFollowUp P s = { s with
      le := { s.le with awaitingWrite := false, step := s.le.step + 1#4 }
      log := s.log ++ [.driver (.strobe .rx), .response .ok [P.tBindRx]] } := by
  simp [bindFollowUp, State.emit, State.respond]

theorem bindRead_of_busy {P : Params} {s : State} (h : s.inputs.draws.busy = true) :
    bindRead P s = { s with
      le := { s.le with step := 1#4, awaitingWrite := false }
      log := s.log ++ [.driver .isBusy, .response .ok [P.tBindRestart]] } := by
  simp [bindRead, h, State.emit, State.respond]

/-- A read that finds a frame: step 4 also installs the address. -/
theorem bindRead_of_ready {P : Params} {s : State} (h : s.inputs.draws.busy = false) :
    bindRead P s = { s with
      le := { s.le with step := s.le.step + 1#4 }
      log := s.log ++ [.driver .isBusy, .driver (.readFrame 16)] ++
        (if s.le.step = 4#4 then [.driver (.writeId (linkAddress s.inputs.draws.rx))] else []) ++
        [.response .ok [P.tBindRead]] } := by
  by_cases h4 : s.le.step = 4#4 <;> simp [bindRead, installAddress, h, h4, State.emit, State.respond]

theorem bindResolve_of_busy {P : Params} {s : State} (hb : s.inputs.draws.busy = true) (hf : s.cfg.forceBind = false) :
    bindResolve P s = { s with
      le := s.le.fallBack
      log := s.log ++ [.driver .isBusy, .response .ok [P.tBindFail]] } := by
  simp [bindResolve, hb, hf, State.emit, State.respond]

/-- Step 8 links when forced, or when the driver is ready and the sentinel was received. -/
theorem bindResolve_of_link {P : Params} {s : State}
    (h : s.cfg.forceBind = true ∨ (s.inputs.draws.busy = false ∧ s.inputs.draws.rx[1] = Config.sentinel)) :
    bindResolve P s = { s with
      le := s.le.enterLinked
      log := s.log ++ [.driver .isBusy, .driver (.readFrame 16), .driver (.writeReg P.codeRateReg P.codeRateVal),
        .response .ok [P.tLinkSettle]] } := by
  rcases h with h | ⟨h, h'⟩ <;> simp [bindResolve, *, State.emit, State.respond]

theorem bindResolve_of_retry {P : Params} {s : State} (hb : s.inputs.draws.busy = false) (hf : s.cfg.forceBind = false)
    (hr : s.inputs.draws.rx[1] ≠ Config.sentinel) :
    bindResolve P s = { s with
      le := s.le.fallBack
      log := s.log ++ [.driver .isBusy, .driver (.readFrame 16), .response .ok [P.tBindRetry]] } := by
  simp [bindResolve, hb, hf, hr, State.emit, State.respond]

theorem linkTransmit_eq (P : Params) (s : State) :
    linkTransmit P s = { s with
      le := { s.le with frameCount := BitVec.ofNat 32 (min s.le.ordinal (2 ^ 32 - 1)), tphase := .awaitTransmit }
      log := s.log ++ (if s.le.step = 1#4 then [.driver (.setPower s.cfg.txPower)] else []) ++
        [.driver (.writeFrame (dataFrame P s.le.cmd s.le.ordinal s.cfg) 16 (uplinkChannel P s.le)),
          .response .ok [P.tTx]] } := by
  by_cases h : s.le.step = 1#4 <;> simp [linkTransmit, assertPower, h, State.emit, State.respond]

theorem linkAwait_of_busy {P : Params} {s : State} (h : s.inputs.draws.busy = true) :
    linkAwait P s = { s with log := s.log ++ [.driver .isBusy, .response .ok [P.tAwaitBusy]] } := by
  simp [linkAwait, h, State.emit, State.respond]

theorem linkAwait_of_ready {P : Params} {s : State} (h : s.inputs.draws.busy = false) :
    linkAwait P s = { s with
      le := { s.le with pollCount := 0#3, tphase := .pollReceive }
      log := s.log ++ [.driver .isBusy, .driver (.strobe .rx), .response .ok [P.tAwaitDone]] } := by
  simp [linkAwait, h, State.emit, State.respond]

theorem linkPoll_of_busy {P : Params} {s : State} (h : s.inputs.draws.busy = true) :
    linkPoll P s = { s with
      le := s.le.countPoll
      log := s.log ++ [.driver .isBusy, .response .ok [P.tPoll]] } := by
  simp [linkPoll, pollDriver, h, State.emit, State.respond]

theorem linkPoll_of_ready {P : Params} {s : State} (h : s.inputs.draws.busy = false) :
    linkPoll P s = { s with
      le := (s.le.telemetryDecode P s.inputs.draws.rx).countPoll
      log := s.log ++ [.driver .isBusy, .driver (.readFrame 16), .driver (.strobe .rx), .response .ok [P.tPoll]] } := by
  simp [linkPoll, pollDriver, h, State.emit, State.respond]

/-- The telemetry decoder replaces at most one buffer, by a validated frame of its tag. -/
theorem telemetryDecode_cases (P : Params) (rx : Frame) (le : LinkEngine) :
    (P.verify rx = true ∧ rx[0] = P.tagA ∧ le.telemetryDecode P rx = { le with telemA := rx, telemValidA := true }) ∨
    (P.verify rx = true ∧ rx[0] = P.tagB ∧ le.telemetryDecode P rx = { le with telemB := rx, telemValidB := true }) ∨
    le.telemetryDecode P rx = le := by
  unfold LinkEngine.telemetryDecode
  split
  · split
    · exact .inl ⟨‹_›, ‹_›, rfl⟩
    · split
      · exact .inr (.inl ⟨‹_›, ‹_›, rfl⟩)
      · exact .inr (.inr rfl)
  · exact .inr (.inr rfl)

/-- A poll either closes the sub-step (the POLLS-th) or only counts. -/
theorem countPoll_cases (le : LinkEngine) :
    (le.pollCount.toNat + 1 = 7 ∧ le.countPoll =
      { le with pollCount := 7#3, step := BitVec.ofNat 4 (le.step.toNat % 5 + 1), tphase := .transmit }) ∨
    (le.pollCount.toNat + 1 ≠ 7 ∧ le.countPoll = { le with pollCount := BitVec.ofNat 3 (le.pollCount.toNat + 1) }) := by
  by_cases h : le.pollCount.toNat + 1 = 7
  · exact .inl ⟨h, by simp [LinkEngine.countPoll, Config.polls, h]⟩
  · exact .inr ⟨h, by simp [LinkEngine.countPoll, Config.polls, h]⟩

/-- R180's table as an inversion. -/
theorem bindBranch_cases {step : BitVec 4} {aw : Bool} {b : BindBranch} (h : bindBranch step aw = some b) :
    (b = .write ∧ aw = false ∧ (step = 1#4 ∨ step = 3#4 ∨ step = 5#4 ∨ step = 7#4)) ∨
    (b = .followUp ∧ aw = true ∧ (step = 1#4 ∨ step = 3#4 ∨ step = 5#4 ∨ step = 7#4)) ∨
    (b = .read ∧ aw = false ∧ (step = 2#4 ∨ step = 4#4 ∨ step = 6#4)) ∨
    (b = .resolve ∧ aw = false ∧ step = 8#4) := by
  revert h; revert step aw b; decide

/-- LE.ADVANCE in Binding follows the case table when no rebind happens. -/
theorem advance_of_branch {P : Params} {s : State} {b : BindBranch} (hp : s.le.phase = .binding)
    (hd : deadlineFires s.inputs.nowMs s.le = false ∨ P.deadlinePolicy = .ignore)
    (hb : bindBranch s.le.step s.le.awaitingWrite = some b) :
    advance P s = .next (match b with
      | .write => bindWrite P s
      | .followUp => bindFollowUp P s
      | .read => bindRead P s
      | .resolve => bindResolve P s) := by
  have h : ¬ (deadlineFires s.inputs.nowMs s.le = true ∧ P.deadlinePolicy = .rebind) := by
    rcases hd with h | h <;> simp [h]
  simp only [advance, hp, advanceBinding, h, if_false, hb]
  cases b <;> rfl

theorem advance_of_transmit {P : Params} {s : State} (hp : s.le.phase = .linked) (ht : s.le.tphase = .transmit) :
    advance P s = .next (linkTransmit P s) := by
  simp only [advance, hp, advanceLinked, ht]

theorem advance_of_await {P : Params} {s : State} (hp : s.le.phase = .linked) (ht : s.le.tphase = .awaitTransmit) :
    advance P s = .next (linkAwait P s) := by
  simp only [advance, hp, advanceLinked, ht]

theorem advance_of_poll {P : Params} {s : State} (hp : s.le.phase = .linked) (ht : s.le.tphase = .pollReceive) :
    advance P s = .next (linkPoll P s) := by
  simp only [advance, hp, advanceLinked, ht]

/-- Everything an LE.ADVANCE that answers can have done. -/
theorem advance_cases {P : Params} {s t : State} (h : advance P s = .next t) :
    (s.le.phase = .idle ∧ t = s.respond .idle [tIdle]) ∨
    (s.le.phase = .binding ∧ P.deadlinePolicy = .rebind ∧ deadlineFires s.inputs.nowMs s.le = true ∧
      t = s.beginBind P [tRebind]) ∨
    (s.le.phase = .binding ∧ bindBranch s.le.step s.le.awaitingWrite = some .write ∧ t = bindWrite P s) ∨
    (s.le.phase = .binding ∧ bindBranch s.le.step s.le.awaitingWrite = some .followUp ∧ t = bindFollowUp P s) ∨
    (s.le.phase = .binding ∧ bindBranch s.le.step s.le.awaitingWrite = some .read ∧ t = bindRead P s) ∨
    (s.le.phase = .binding ∧ bindBranch s.le.step s.le.awaitingWrite = some .resolve ∧ t = bindResolve P s) ∨
    (s.le.phase = .linked ∧ s.le.tphase = .transmit ∧ t = linkTransmit P s) ∨
    (s.le.phase = .linked ∧ s.le.tphase = .awaitTransmit ∧ t = linkAwait P s) ∨
    (s.le.phase = .linked ∧ s.le.tphase = .pollReceive ∧ t = linkPoll P s) := by
  unfold advance at h
  split at h
  · exact .inl ⟨‹_›, by cases h; rfl⟩
  · unfold advanceBinding at h
    split at h
    · rename_i hp hd
      exact .inr (.inl ⟨hp, hd.2, hd.1, by cases h; rfl⟩)
    · split at h <;> cases h <;> simp_all
  · unfold advanceLinked at h
    split at h <;> cases h <;> simp_all

/-- Everything an edge can do to the Pulse Decoder. -/
theorem onEdge_cases (nowUs : Word) (pd : PulseDecoder) :
    (isSyncWidth (nowUs - pd.lastEdgeTime) = true ∧
      pd.onEdge nowUs = { pd with lastEdgeTime := nowUs, fresh := pd.frameValid, frameValid := true, index := 0#4 }) ∨
    (isSyncWidth (nowUs - pd.lastEdgeTime) = false ∧ ∃ h : pd.index.toNat < 8,
      pulseInRange (nowUs - pd.lastEdgeTime) = true ∧
      pd.onEdge nowUs = { pd with
        lastEdgeTime := nowUs
        raw := pd.raw.set pd.index.toNat ((nowUs - pd.lastEdgeTime).extractLsb' 0 16) h
        index := pd.index + 1#4 }) ∨
    (isSyncWidth (nowUs - pd.lastEdgeTime) = false ∧ pd.index.toNat < 8 ∧
      pulseInRange (nowUs - pd.lastEdgeTime) = false ∧
      pd.onEdge nowUs = { pd with lastEdgeTime := nowUs, frameValid := false, index := pd.index + 1#4 }) ∨
    (isSyncWidth (nowUs - pd.lastEdgeTime) = false ∧ 8 ≤ pd.index.toNat ∧
      pd.onEdge nowUs = { pd with lastEdgeTime := nowUs }) := by
  unfold PulseDecoder.onEdge
  simp only []
  split
  · exact .inl ⟨‹_›, rfl⟩
  · rename_i hs
    have hs : isSyncWidth (nowUs - pd.lastEdgeTime) = false := by simpa using hs
    split
    · rename_i hi
      split
      · exact .inr (.inl ⟨hs, hi, ‹_›, rfl⟩)
      · rename_i hr
        exact .inr (.inr (.inl ⟨hs, hi, by simpa using hr, rfl⟩))
    · exact .inr (.inr (.inr ⟨hs, by omega, rfl⟩))

/-- Everything one step can do: hold, reset, run a decoded word, answer ILLEGAL, or drop an edge word. -/
theorem step_cases {s t : State} (h : step s = .next t) :
    (s.events = [] ∧ t = s) ∨
    (∃ es, s.events = .reset :: es ∧ t = ({ s with events := es } : State).resetEvent) ∨
    (∃ w us ms d es i, s.events = .cmd w us ms d :: es ∧ decode .cmd w = .instr i ∧
      exec i (({ s with events := es } : State).latchCmd us ms d) = .next t) ∨
    (∃ w us ms d es op, s.events = .cmd w us ms d :: es ∧ decode .cmd w = .illegal op ∧
      t = (({ s with events := es } : State).latchCmd us ms d).raise .illegal) ∨
    (∃ w us es i, s.events = .edge w us :: es ∧ decode .edge w = .instr i ∧
      exec i (({ s with events := es } : State).latchEdge us) = .next t) ∨
    (∃ w us es op, s.events = .edge w us :: es ∧ decode .edge w = .discarded op ∧
      t = ({ s with events := es } : State).latchEdge us) := by
  unfold step fetch at h
  split at h
  · rename_i u hu
    cases h
    split at hu
    · rename_i he; cases hu; exact .inl ⟨he, rfl⟩
    · rename_i e es he
      cases e with
      | reset => cases hu; exact .inr (.inl ⟨es, he, rfl⟩)
      | cmd w us ms d =>
        simp only [fetchEvent] at hu
        cases hd : decode .cmd w with
        | instr i => simp [hd, fetchDecoded] at hu
        | illegal op =>
          simp only [hd, fetchDecoded] at hu; cases hu
          exact .inr (.inr (.inr (.inl ⟨w, us, ms, d, es, op, he, hd, rfl⟩)))
        | discarded op =>
          exfalso; revert hd; simp only [decode, decodeCmd]; split_ifs <;> simp
      | edge w us =>
        simp only [fetchEvent] at hu
        cases hd : decode .edge w with
        | instr i => simp [hd, fetchDecoded] at hu
        | illegal op => exfalso; revert hd; simp only [decode, decodeEdge]; split_ifs <;> simp
        | discarded op =>
          simp only [hd, fetchDecoded] at hu; cases hu
          exact .inr (.inr (.inr (.inr (.inr ⟨w, us, es, op, he, hd, rfl⟩))))
  · rename_i i u hu
    split at hu
    · cases hu
    · rename_i e es he
      cases e with
      | reset => cases hu
      | cmd w us ms d =>
        simp only [fetchEvent] at hu
        cases hd : decode .cmd w with
        | instr j =>
          simp only [hd, fetchDecoded] at hu; cases hu
          exact .inr (.inr (.inl ⟨w, us, ms, d, es, i, he, hd, h⟩))
        | illegal op => simp [hd, fetchDecoded] at hu
        | discarded op => simp [hd, fetchDecoded] at hu
      | edge w us =>
        simp only [fetchEvent] at hu
        cases hd : decode .edge w with
        | instr j =>
          simp only [hd, fetchDecoded] at hu; cases hu
          exact .inr (.inr (.inr (.inr (.inl ⟨w, us, es, i, he, hd, h⟩))))
        | illegal op => simp [hd, fetchDecoded] at hu
        | discarded op => simp [hd, fetchDecoded] at hu

end Sys2Proof.Machine
end

