-- ==== Sys2Proof/Laws/PerInstr.lean ====
section
/-! SUPPORT. Facts about every instruction, one lemma per constructor of `Instr` (LAWS.json).
`Row`: the word of an instruction is one of its row of spec/opcode_table.json: mask 0xFF000000, match its opcode. -/
namespace Sys2Proof.Laws.Row

/-- The opcode byte of an instruction's word is its row's. -/
def Statement (i : Instr) : Prop := opcodeField (encode i) = i.opcode

theorem pdSetup (line : LineField) (pol : PolField) : Statement (.pdSetup line pol) := opcodeField_formatS ..
theorem pdRead : Statement .pdRead := opcodeField_formatN _
theorem pdEdge (line : LineField) (pol : PolField) : Statement (.pdEdge line pol) := opcodeField_formatS ..
theorem leBeginBind : Statement .leBeginBind := opcodeField_formatN _
theorem leSetCommand (id : CommandId) (value : Half) : Statement (.leSetCommand id value) := opcodeField_formatK ..
theorem leAdvance : Statement .leAdvance := opcodeField_formatN _
theorem leSetConfig (id : ConfigId) (value : Half) : Statement (.leSetConfig id value) := opcodeField_formatK ..
theorem leReadTelem (sel : TelemBuf) : Statement (.leReadTelem sel) := opcodeField_formatT ..
theorem leReadState : Statement .leReadState := opcodeField_formatN _

end Sys2Proof.Laws.Row
end

