-- ==== Sys2Proof/Laws/Runs.lean ====
section
/-! SUPPORT. Runs, one step at a time: the first step of a run, two runs in a row, and the step of each kind of event
that the claims about runs place on the stream. -/
namespace Sys2Proof.Machine

/-- A run whose first step answers `u` goes on from `u`. -/
theorem run_succ_of_next (M : Host.Core) (k : Nat) (s u : M.State) (h : M.step s = .next u) :
    M.run (k + 1) s = M.run k u := by
  simp only [Host.Core.run, h]

/-- A run of no step ends where it begins. -/
theorem runsOn_zero {s t : State} : RunsOn 0 s t ↔ s = t := by
  constructor
  · intro h; exact Host.Outcome.next.inj h
  · rintro rfl; rfl

/-- Peel the first step off a run. -/
theorem runsOn_succ {k : Nat} {s u t : State} (h : step s = .next u) : RunsOn (k + 1) s t ↔ RunsOn k u t := by
  have e := run_succ_of_next Sys2Proof.core k s u h
  exact ⟨fun x => e.symm.trans x, fun x => e.trans x⟩

/-- Two runs in a row are one. -/
theorem runsOn_trans {m n : Nat} {s u t : State} (h : RunsOn m s u) (h' : RunsOn n u t) : RunsOn (n + m) s t := by
  induction m generalizing s with
  | zero => rw [runsOn_zero] at h; subst h; exact h'
  | succ m ih =>
    cases hs : step s with
    | next v =>
      rw [← Nat.add_assoc, runsOn_succ hs]
      exact ih ((runsOn_succ hs).1 h)
    | fault r =>
      exfalso
      have e : Sys2Proof.core.step s = .fault r := hs
      simp only [RunsOn, Host.Core.run, e] at h
      cases h
    | refused r =>
      exfalso
      have e : Sys2Proof.core.step s = .refused r := hs
      simp only [RunsOn, Host.Core.run, e] at h
      cases h

/-- The step of a command word that decodes. -/
theorem step_cmd {s : State} {w us ms : Word} {d : Draws} {es : List Event} {i : Instr}
    (he : s.events = .cmd w us ms d :: es) (hd : decode .cmd w = .instr i) :
    step s = exec i { s with events := es, inputs := ⟨us, ms, d⟩ } := by
  simp only [step, fetch, he, fetchEvent, hd, fetchDecoded]
  rfl

/-- The step of an edge word that decodes. -/
theorem step_edge {s : State} {w us : Word} {es : List Event} {i : Instr}
    (he : s.events = .edge w us :: es) (hd : decode .edge w = .instr i) :
    step s = exec i { s with events := es, inputs := { s.inputs with nowUs := us } } := by
  simp only [step, fetch, he, fetchEvent, hd, fetchDecoded]
  rfl

/-- The step of one LE.ADVANCE of a train. -/
theorem step_advance {s : State} {a : Inputs} {as : List Inputs} {rest : List Event}
    (he : s.events = advanceTrain (a :: as) ++ rest) :
    step s = advance Config.params { s with events := advanceTrain as ++ rest, inputs := a } := by
  rw [step_cmd (i := .leAdvance) (es := advanceTrain as ++ rest) (by simpa [advanceTrain] using he) (by decide)]
  rfl

/-- A qualifying edge, one step. -/
theorem step_pulse {s : State} {word us : Word} {l : LineField} {p : PolField} {es : List Event}
    (he : s.events = .edge word us :: es) (hd : decode .edge word = .instr (.pdEdge l p))
    (hq : s.pd.qualifies l p = true) :
    step s = .next { s with
      pd := s.pd.onEdge us, events := es, inputs := { s.inputs with nowUs := us } } := by
  rw [step_edge he hd]
  simp only [exec, execPdEdge, hq, if_true]

end Sys2Proof.Machine
end

