-- ==== Sys2Proof/Laws/Values.lean ====
section
/-! SUPPORT. The small functions on values, in plain numbers: width tests, command values, flag bits, and what a framed
payload is made of. -/
namespace Sys2Proof.Machine

theorem isSyncWidth_iff (w : Word) : isSyncWidth w = true ↔ 2500 < w.toNat := by
  unfold isSyncWidth; rw [decide_eq_true_eq]; exact Iff.rfl

theorem isSyncWidth_eq_false_iff (w : Word) : isSyncWidth w = false ↔ w.toNat ≤ 2500 := by
  rw [← Bool.not_eq_true, isSyncWidth_iff, Nat.not_lt]

theorem pulseInRange_iff (w : Word) : pulseInRange w = true ↔ 800 ≤ w.toNat ∧ w.toNat ≤ 2200 := by
  unfold pulseInRange; rw [decide_eq_true_eq]; exact Iff.rfl

theorem pulseInRange_eq_false_iff (w : Word) : pulseInRange w = false ↔ ¬ (800 ≤ w.toNat ∧ w.toNat ≤ 2200) := by
  rw [← Bool.not_eq_true, pulseInRange_iff]

theorem toggleBit_eq (v : Half) : toggleBit v = decide (1500 ≤ v.toNat) := rfl

theorem scaleByte_eq (v : Half) (lo : Nat) :
    scaleByte v lo = BitVec.ofNat 8 ((min (max v.toNat lo) 2000 - lo) * 255 / (2000 - lo)) := rfl

@[simp] theorem flagWhen_true (b : Byte) : flagWhen true b = b := rfl
@[simp] theorem flagWhen_false (b : Byte) : flagWhen false b = 0#8 := rfl
@[simp] theorem invertWhen_true (v : Byte) : invertWhen true v = 255#8 - v := rfl
@[simp] theorem invertWhen_false (v : Byte) : invertWhen false v = v := rfl

theorem bitAt_zero_eq (b : Bool) : bitAt 0 b = if b = true then 1#32 else 0#32 := by revert b; decide

/-- Bit `i` of a field placed at `lo`. -/
theorem fieldAt_getLsbD (lo n : Nat) (v : BitVec n) (i : Nat) (hi : i < 32) :
    (fieldAt lo v).getLsbD i = (decide (lo ≤ i) && v.getLsbD (i - lo)) := by
  unfold fieldAt
  by_cases h : i < lo
  · simp [h, hi]
  · simp [h, hi]; omega

/-- Bit `i` of a flag placed at `lo`. -/
theorem bitAt_getLsbD (lo : Nat) (b : Bool) (i : Nat) (hi : i < 32) :
    (bitAt lo b).getLsbD i = (decide (i = lo) && b) := by
  unfold bitAt
  rw [fieldAt_getLsbD _ _ _ _ hi]
  by_cases h : i = lo
  · subst h; cases b <;> simp
  · by_cases h2 : lo ≤ i
    · have : i - lo ≠ 0 := by omega
      cases b <;> simp [h, h2, this]
    · simp [h, h2]

theorem isExtended_iff (cfg : ConfigRegs) (k : Nat) : isExtended cfg k = true ↔ cfg.extEnable = true ∧ k = 100 := by
  unfold isExtended; rw [Bool.and_eq_true, decide_eq_true_eq]; exact Iff.rfl

/-- A framed payload's first 15 bytes are the payload. -/
theorem framed_pop (P : Params) (p : Payload) : (framed P p).pop = p := by simp [framed]

/-- A framed payload's byte 15 is its checksum. -/
theorem framed_last (P : Params) (p : Payload) : (framed P p)[15] = P.ck p := by simp [framed]

theorem Params.frameOffsets_lawful (P : Params) : P.frameOffsets.Lawful := by
  unfold Params.frameOffsets
  split
  · assumption
  · decide

/-- Lawful offsets are the frame offsets of the parameters made from them. -/
theorem Params.frameOffsets_of_lawful {P : Params} (h : P.frameOffsetsFree.Lawful) :
    P.frameOffsets = P.frameOffsetsFree := if_pos h

theorem defaults_frameOffsets (a b : Byte) (fields : TelemField → FieldPlace) (pol : DeadlinePolicy) :
    (Config.defaults a b fields pol).frameOffsets = Config.frameOffsetsDefault :=
  Params.frameOffsets_of_lawful (show Config.frameOffsetsDefault.Lawful by decide)

/-- The two places of the video frequency and the selector. -/
theorem Params.frameOffsets_head_cases (P : Params) :
    P.frameOffsets.vtx = 1 ∧ P.frameOffsets.sel = 3 ∨ P.frameOffsets.vtx = 2 ∧ P.frameOffsets.sel = 1 := by
  obtain ⟨-, -, -, hn, hb⟩ := Params.frameOffsets_lawful P
  simp only [FrameOffsets.head, List.nodup_cons, List.mem_cons, not_or] at hn
  simp only [FrameOffsets.head, List.forall_mem_cons] at hb
  omega

theorem payloadOf_getElem (f : Nat → Byte) {i : Nat} (h : i < 15) : (payloadOf f)[i] = f i := by
  rcases i with _ | _ | _ | _ | _ | _ | _ | _ | _ | _ | _ | _ | _ | _ | _ | i <;> first | rfl | omega

/-- Byte by byte, what a frame of either kind carries below its checksum. -/
theorem dataFrame_getElem (P : Params) (cmd : CommandSet) (k : Nat) (cfg : ConfigRegs) {i : Nat} (h : i < 15) :
    (dataFrame P cmd k cfg)[i] = if isExtended cfg k then extByte P cmd k cfg i else dataByte P cmd k i := by
  unfold dataFrame framed
  rw [Vector.getElem_push_lt h, payloadOf_getElem _ h]
  split <;> rfl

/-- An extended frame's bytes 4 to 14 are the data frame's. -/
theorem extByte_of_tail (P : Params) (cmd : CommandSet) (k : Nat) (cfg : ConfigRegs) {i : Nat} (h : 4 ≤ i) :
    extByte P cmd k cfg i = dataByte P cmd k i := by
  obtain ⟨-, -, -, -, hh⟩ := Params.frameOffsets_lawful P
  simp only [FrameOffsets.head, List.forall_mem_cons] at hh
  unfold extByte
  rw [if_neg (by omega), if_neg (by omega), if_neg (by omega), if_neg (by omega)]

end Sys2Proof.Machine
end

