-- ==== Sys2Proof/Tests/Slice0.lean ====
section
/-! SUPPORT. Tests of this model: the WellFormed smoke tests, one word of every instruction decoded, vectors of
95_test_vectors.md under the parameters they name (`P0`), and for each statement of Certificates/Slice0/Obligations.lean
that has hypotheses a witness that meets them. Expected values are the vectors' or written out from the rule named. -/
namespace Sys2Proof.Tests

open Sys2Proof.Machine

/-! ## WellFormed: one ill-formed term for each check -/

theorem test_wf_line_code_of_a_line_is_not_invalid : (Instr.pdSetup (.invalid 0x01#8) .rising).wellFormed = false := by decide
theorem test_wf_polarity_code_of_a_polarity_is_not_invalid : (Instr.pdEdge .line0 (.invalid 0x02#8)).wellFormed = false := by decide
theorem test_wf_command_code_in_range_is_not_unrecognized : (Instr.leSetCommand (.unrecognized 0x06#8) 0#16).wellFormed = false := by decide
theorem test_wf_config_code_in_range_is_not_unrecognized : (Instr.leSetConfig (.unrecognized 0x03#8) 0#16).wellFormed = false := by decide
theorem test_wf_codes_out_of_range_are_accepted :
    (Instr.pdSetup (.invalid 0x02#8) (.invalid 0x00#8)).wellFormed = true ∧
    (Instr.leSetCommand (.unrecognized 0x07#8) 0#16).wellFormed = true ∧
    (Instr.leSetConfig (.unrecognized 0x04#8) 0#16).wellFormed = true := by decide

/-! ## Decode: words written out from 30_encoding.md R82, R83 (the examples of its rules and of 95_test_vectors.md) -/

theorem test_decode_pd_setup : decode .cmd 0x01000102#32 = .instr (.pdSetup .line1 .falling) := by decide
theorem test_decode_pd_setup_ignores_reserved_bits : decode .cmd 0x01FF0001#32 = .instr (.pdSetup .line0 .rising) := by decide
theorem test_decode_pd_read : decode .cmd 0x02000000#32 = .instr .pdRead := by decide
theorem test_decode_pd_edge : decode .edge 0x03000101#32 = .instr (.pdEdge .line1 .rising) := by decide
theorem test_decode_le_begin_bind : decode .cmd 0x10000000#32 = .instr .leBeginBind := by decide
theorem test_decode_le_set_command : decode .cmd 0x110105DC#32 = .instr (.leSetCommand .yaw 1500#16) := by decide
theorem test_decode_le_advance : decode .cmd 0x12FFFFFF#32 = .instr .leAdvance := by decide
theorem test_decode_le_set_config : decode .cmd 0x130316FD#32 = .instr (.leSetConfig .vtxFreq 5885#16) := by decide
theorem test_decode_le_read_telem : decode .cmd 0x14000003#32 = .instr (.leReadTelem .b) := by decide
theorem test_decode_le_read_state : decode .cmd 0x15000000#32 = .instr .leReadState := by decide
theorem test_decode_edge_opcode_is_no_command : decode .cmd 0x03000001#32 = .illegal 0x03#8 := by decide
theorem test_decode_command_is_no_edge : decode .edge 0x02000000#32 = .discarded 0x02#8 := by decide
theorem test_table_word_of_edge_row : decodeTableWord 32 0x03000001 = some (.pdEdge .line0 .rising) := by decide

/-! ## Small states -/

/-- The parameters of 95_test_vectors.md. -/
def P0 : Params := Config.defaults 0xE7#8 0xE8#8 (fun _ => ⟨0, 0⟩) .ignore

/-- The same with DEADLINE_POLICY = REBIND. -/
def P1 : Params := Config.defaults 0xE7#8 0xE8#8 (fun _ => ⟨0, 0⟩) .rebind

/-- A received frame: sentinel at byte 1, an address at bytes 2 to 5. -/
def rx0 : Frame :=
  #v[0x00#8, 0x09#8, 0xA1#8, 0xB2#8, 0xC3#8, 0xD4#8, 0x00#8, 0x00#8, 0x00#8, 0x00#8, 0x00#8, 0x00#8, 0x00#8, 0x00#8, 0x00#8, 0x00#8]

/-- The inputs of one event: Init answers true, ComputeTimeout 5000, the draws of vector LC-B1. -/
def ins (busy : Bool) (ms : Word) : Inputs :=
  { nowUs := 0#32, nowMs := ms,
    draws := { initOk := true, timeout := 5000#32, busy := busy, rx := rx0, sid := 0x12345678#32, chan := 14#32 } }

/-- The start state of the vectors of section 2.4. -/
def binding (step : BitVec 4) (aw busy : Bool) : State :=
  { State.reset with
    le := { LinkEngine.reset with
      phase := .binding, step := step, awaitingWrite := aw, sessionId := 0x12345678#32, channel := 0x28#8,
      deadline := 5000#32, deadlineActive := true }
    inputs := ins busy 1000#32 }

/-- The start state of the vectors of section 2.5. -/
def linked (step : BitVec 4) (tp : TPhase) (polls : BitVec 3) (busy : Bool) : State :=
  { State.reset with
    le := { LinkEngine.reset with phase := .linked, step := step, tphase := tp, pollCount := polls, channel := 0x28#8 }
    cfg := { ConfigRegs.reset with txPower := 0x07#8 }
    inputs := ins busy 1000#32 }

/-- The start state of vectors PD-E1 to PD-E8. -/
def capturing : PulseDecoder :=
  { PulseDecoder.reset with
    enabled := true, lastEdgeTime := 100000#32, index := 3#4, frameValid := true,
    raw := #v[1500#16, 1500#16, 1500#16, 1500#16, 1500#16, 1500#16, 1500#16, 1500#16] }

/-- The next state of an outcome, if it is one. -/
def next? : Host.Outcome State Fault Refusal → Option State
  | .next s => some s
  | .fault _ => none
  | .refused _ => none

/-- Four fields of the Pulse Decoder after an edge. -/
def edgeView (pd : PulseDecoder) : BitVec 4 × Bool × Bool × Half := (pd.index, pd.frameValid, pd.fresh, pd.raw[3])

/-! ## Vectors, at most two for an instruction -/

/-- PD-S1. -/
theorem test_setup_binds : (next? (exec (.pdSetup .line1 .falling) State.reset)).map (fun t => (decoderWord t.pd, t.log)) =
    some (0x00080203#32, [.response .ok []]) := by decide

/-- PD-S2. -/
theorem test_setup_rejects_line_2 :
    exec (.pdSetup (decodeLine 0x02#8) .rising) State.reset = .next { State.reset with log := [.response .configError []] } := rfl

/-- PD-E1 to PD-E8, on the handler. -/
theorem test_edge_widths :
    edgeView (capturing.onEdge 101500#32) = (4#4, true, false, 1500#16) ∧
    edgeView (capturing.onEdge 100800#32) = (4#4, true, false, 800#16) ∧
    edgeView (capturing.onEdge 100799#32) = (4#4, false, false, 1500#16) ∧
    edgeView (capturing.onEdge 102201#32) = (4#4, false, false, 1500#16) ∧
    edgeView (capturing.onEdge 102200#32) = (4#4, true, false, 2200#16) ∧
    edgeView (capturing.onEdge 102500#32) = (4#4, false, false, 1500#16) ∧
    edgeView (capturing.onEdge 102501#32) = (0#4, true, true, 1500#16) ∧
    edgeView (capturing.onEdge 100000#32) = (4#4, false, false, 1500#16) := by decide

/-- PD-E9: a width across the wrap of the clock. -/
theorem test_edge_wraps :
    (({ capturing with lastEdgeTime := 0xFFFFFC18#32, index := 0#4 }).onEdge 0x1F4#32).raw[0] = 1500#16 := by decide

/-- PD-R2: the data words, and fresh cleared. -/
theorem test_read_publishes :
    (next? (exec .pdRead { State.reset with pd := { PulseDecoder.reset with
      fresh := true, frameValid := true,
      raw := #v[1000#16, 1100#16, 1200#16, 1300#16, 1400#16, 1500#16, 1600#16, 1700#16] } })).map
      (fun t => (t.pd.fresh, t.log)) =
    some (false, [.response .ok [3#32, 1000#32, 1100#32, 1200#32, 1300#32, 1400#32, 1500#32, 1600#32, 1700#32]]) := by
  decide

/-- LC-B1, by the shared operation at the vectors' parameters. -/
theorem test_begin_bind_starts :
    (State.beginBind P0 [] { State.reset with inputs := ins false 0#32 }).le.channel = 0x28#8 ∧
    (State.beginBind P0 [] { State.reset with inputs := ins false 0#32 }).log =
      [.driver .init, .driver .computeTimeout, .response .ok []] := by decide

/-- LC-B3: Init fails in Linked; the frame count and the session stay. -/
theorem test_begin_bind_aborts :
    (next? (exec .leBeginBind { State.reset with
      le := { LinkEngine.reset with phase := .linked, step := 3#4, tphase := .pollReceive, pollCount := 4#3, frameCount := 57#32 } })).map
      (fun t => (t.le.phase, t.le.step, t.le.frameCount, t.log)) =
    some (.idle, 0#4, 57#32, [.driver .init, .response .initFail []]) := by decide

/-- LC-C1, LC-C5, LC-C6, LC-C7, LC-C8 and LC-C11. -/
theorem test_set_command_rescales :
    (State.setCommand P0 .throttle 1500#16 State.reset).le.cmd.thr = 127#8 ∧
    (State.setCommand P0 .yaw 1004#16 State.reset).le.cmd.yaw = 1#8 ∧
    (State.setCommand P0 .yaw 1003#16 State.reset).le.cmd.yaw = 0#8 ∧
    (State.setCommand P0 .pitch 1996#16 State.reset).le.cmd.pitch = 253#8 ∧
    (State.setCommand P0 .pitch 1999#16 State.reset).le.cmd.pitch = 254#8 ∧
    (State.setCommand P0 .flip 1499#16 State.reset).le.cmd.flip = false := by decide

/-- LC-C17 and LC-C18: a throttle floor of 1100, which no other axis uses. -/
theorem test_set_command_throttle_floor :
    (State.setCommand { P0 with thrFloorFree := 100 } .throttle 1100#16 State.reset).le.cmd.thr = 0#8 ∧
    (State.setCommand { P0 with thrFloorFree := 100 } .throttle 1550#16 State.reset).le.cmd.thr = 127#8 ∧
    (State.setCommand { P0 with thrFloorFree := 100 } .yaw 1500#16 State.reset).le.cmd.yaw = 127#8 := by decide

/-- LC-F4. -/
theorem test_set_config_takes_the_low_byte :
    (next? (exec (.leSetConfig .txPower 0x1234#16) State.reset)).map (fun t => t.cfg.txPower) = some 0x34#8 := by decide

/-- LC-F6. -/
theorem test_set_config_rejects_field_4 :
    (next? (exec (.leSetConfig (decodeConfigId 0x04#8) 1#16) State.reset)).map (fun t => t.log) =
      some [.response .badField []] := by decide

/-- R163, R63: the received frame of the states above, read from buffer B. -/
theorem test_read_telem_is_big_endian :
    (next? (exec (.leReadTelem .b) { State.reset with le := { LinkEngine.reset with telemB := rx0, telemValidB := true } })).map
      (fun t => t.log) = some [.response .ok [1#32, 0x0009A1B2#32, 0xC3D40000#32, 0#32, 0#32]] := by decide

/-- LC-V1. -/
theorem test_read_state_at_reset :
    (next? (exec .leReadState State.reset)).map (fun t => t.log) =
      some [.response .ok ([0#32, 0#32, 0#32, 0#32, 0#32, 0x80808000#32, 0#32, 0#32, 0x00080100#32, 0#32] ++
        List.replicate 16 1500#32 ++ [0#32])] := by decide

/-- BD-W3: the step-3 write, at the vectors' parameters. -/
theorem test_advance_bind_write :
    (next? (advance P0 (binding 3#4 false false))).map (fun t => t.log) =
      some [.driver (.writeFrame #v[0x02#8, 0x28#8, 0x12#8, 0x34#8, 0x56#8, 0x78#8, 0x08#8, 0xE4#8, 0xEA#8, 0x9E#8, 0x50#8,
        0xDB#8, 0x04#8, 0x26#8, 0x79#8, 0x80#8] 16 0x28#8), .response .ok [3000#32]] := by decide

/-- LK-T5: the hopped transmission of D1 in sub-step 5, at the vectors' parameters. -/
theorem test_advance_link_transmit :
    (next? (advance P0 (linked 5#4 .transmit 0#3 false))).map (fun t => t.log) =
      some [.driver (.writeFrame #v[0x20#8, 0x00#8, 0x00#8, 0x00#8, 0x7F#8, 0x00#8, 0x7F#8, 0x00#8, 0x80#8, 0x0E#8, 0x64#8,
        0xDB#8, 0x04#8, 0x26#8, 0x79#8, 0x72#8] 16 0x4B#8), .response .ok [3000#32]] := by decide

/-- R238: bytes 0 to 3 of the frame of ordinal 100 with the extended feature on; ordinals 99 and 101 are normal. -/
theorem test_extended_frame_at_100 :
    (dataFrame P0 CommandSet.reset 100 { ConfigRegs.reset with extEnable := true, vtxFreq := 5885#16 }).toList.take 4 =
      [0x40#8, 0x16#8, 0xFD#8, 0x82#8] ∧
    (dataFrame P0 CommandSet.reset 99 { ConfigRegs.reset with extEnable := true, vtxFreq := 5885#16 })[0] = 0x20#8 ∧
    (dataFrame P0 CommandSet.reset 101 { ConfigRegs.reset with extEnable := true, vtxFreq := 5885#16 })[0] = 0x20#8 := by
  decide

/-- Offsets other than the defaults, with every field at another place. -/
def mirrored : FrameOffsets :=
  { thr := 3, yaw := 14, pitch := 13, roll := 12, flags := 11, dataConst := 8, txid := 4, vtx := 2, sel := 1 }

/-- R235, R62: at other lawful offsets the same fields move, the transmitter id still big-endian. -/
theorem test_data_frame_at_other_offsets :
    (dataFrame { P0 with frameOffsetsFree := mirrored } { CommandSet.reset with thr := 0x55#8 } 1
      ConfigRegs.reset).toList.take 15 =
      [0x20#8, 0x00#8, 0x00#8, 0x55#8, 0xDB#8, 0x04#8, 0x26#8, 0x79#8, 0x64#8, 0x00#8, 0x00#8, 0x0E#8, 0x80#8, 0x7F#8,
        0x7F#8] := by decide

/-- 30_encoding.md R80: a placed word runs as the first instruction after reset, on either port. -/
theorem test_placed_words_run :
    (next? (step (State.reset.withFetchWord 32 0x01000102))).map (fun t => (t.pd.enabled, t.events)) = some (true, []) ∧
    (next? (step (State.reset.withFetchWord 32 0x12000000))).map (fun t => t.log) = some [.response .idle [0#32]] ∧
    (next? (step (State.reset.withFetchWord 32 0x03000001))).map (fun t => t.log) = some [] := by decide

/-! ## Witnesses: the hypotheses of each statement, met together -/

theorem witness_DecodeInvertsEncode :
    (Instr.pdSetup (.invalid 0xFF#8) (.invalid 0x03#8)).wellFormed = true ∧
    (Instr.leSetCommand (.unrecognized 0x07#8) 0xFFFF#16).wellFormed = true ∧
    (Instr.leReadTelem .b).wellFormed = true := by decide

theorem witness_EncodeInvertsDecode :
    decode .cmd 0x14FFFFFF#32 = .instr (.leReadTelem .b) ∧ decode .edge 0x03FF0101#32 = .instr (.pdEdge .line1 .rising) := by
  decide

/-- The eight rows of the CMD port and its reserved opcodes; the one row of the EDGE port and another word. -/
theorem witness_DecoderIsTotalByOpcode :
    opcodeField 0x01000000#32 ∈ [0x01#8, 0x02#8, 0x10#8, 0x11#8, 0x12#8, 0x13#8, 0x14#8, 0x15#8] ∧
    opcodeField 0x15FFFFFF#32 ∈ [0x01#8, 0x02#8, 0x10#8, 0x11#8, 0x12#8, 0x13#8, 0x14#8, 0x15#8] ∧
    opcodeField 0x16000000#32 ∉ [0x01#8, 0x02#8, 0x10#8, 0x11#8, 0x12#8, 0x13#8, 0x14#8, 0x15#8] ∧
    opcodeField 0x03000001#32 = 0x03#8 ∧ opcodeField 0x02000000#32 ≠ 0x03#8 := by decide

/-- Each clause at both ends of its range: 0x00, 0x03 and 0x0F, 0x16 and 0xFF. -/
theorem witness_ReservedOpcodeAnswersIllegal :
    (opcodeField 0x00FFFFFF#32).toNat = 0x00 ∧
    (0x03 ≤ (opcodeField 0x03000001#32).toNat ∧ (opcodeField 0x03000001#32).toNat ≤ 0x0F) ∧
    (0x03 ≤ (opcodeField 0x0F000000#32).toNat ∧ (opcodeField 0x0F000000#32).toNat ≤ 0x0F) ∧
    0x16 ≤ (opcodeField 0x16000000#32).toNat ∧ 0x16 ≤ (opcodeField 0xFFFFFFFF#32).toNat := by decide

theorem witness_StepRunsTheDecodedInstruction :
    decode .cmd 0x12000000#32 = .instr .leAdvance ∧ decode .edge 0x03000002#32 = .instr (.pdEdge .line0 .falling) := by decide

theorem witness_PlacedWordRunsNext :
    (Instr.pdEdge .line1 (.invalid 0x00#8)).wellFormed = true ∧ (Instr.leSetConfig .vtxFreq 5885#16).wellFormed = true := by
  decide

/-- A decoder bound to line 0, rising, with a frame open. -/
def bound : State := { State.reset with pd := capturing }

/-- Widths at both ends of the range, and a gap and an opening edge just wide enough. -/
theorem witness_EightValidPulsesReachTheReader :
    ∃ (s : State) (word t0 gap us ms : Word) (d : Draws) (ws : List Word) (l : LineField) (p : PolField) (rest : List Event),
      decode .edge word = .instr (.pdEdge l p) ∧ s.pd.qualifies l p = true ∧
      2500 < (t0 - s.pd.lastEdgeTime).toNat ∧
      ws.length = 8 ∧ (∀ w ∈ ws, 800 ≤ w.toNat ∧ w.toNat ≤ 2200) ∧ 2500 < gap.toNat ∧
      s.events = .edge word t0 :: pulseTrain word t0 (ws ++ [gap]) ++ [.cmd (encode .pdRead) us ms d] ++ rest :=
  ⟨{ bound with events := .edge 0x03000001#32 102501#32 ::
        pulseTrain 0x03000001#32 102501#32 ([800#32, 2200#32, 1000#32, 1100#32, 1200#32, 1300#32, 1400#32, 1500#32] ++ [2501#32]) ++
        [.cmd (encode .pdRead) 0#32 0#32 (ins false 0#32).draws] ++ [.reset] },
    0x03000001#32, 102501#32, 2501#32, 0#32, 0#32, (ins false 0#32).draws,
    [800#32, 2200#32, 1000#32, 1100#32, 1200#32, 1300#32, 1400#32, 1500#32], .line0, .rising, [.reset],
    by decide, by decide, by decide, rfl, by simp, by decide, rfl⟩

/-- Nine pulses, the ninth out of range and the second at the edge of a sync; and a frame of no pulse. -/
theorem witness_FreshReportsTheFirstEightPulses :
    ∃ (s : State) (word t0 gap : Word) (ws : List Word) (l : LineField) (p : PolField) (rest : List Event),
      decode .edge word = .instr (.pdEdge l p) ∧ s.pd.qualifies l p = true ∧
      2500 < (t0 - s.pd.lastEdgeTime).toNat ∧ ws.length = 9 ∧ (∀ w ∈ ws, w.toNat ≤ 2500) ∧ 2500 < gap.toNat ∧
      s.events = .edge word t0 :: pulseTrain word t0 (ws ++ [gap]) ++ rest :=
  ⟨{ bound with events := .edge 0x03000001#32 102501#32 ::
        pulseTrain 0x03000001#32 102501#32 ([1500#32, 2500#32, 1500#32, 1500#32, 1500#32, 1500#32, 1500#32, 1500#32, 0#32] ++ [4000#32]) ++
        [] },
    0x03000001#32, 102501#32, 4000#32, [1500#32, 2500#32, 1500#32, 1500#32, 1500#32, 1500#32, 1500#32, 1500#32, 0#32],
    .line0, .rising, [], by decide, by decide, by decide, rfl, by simp, by decide, rfl⟩

theorem witness_RescaleIsMonotoneWithinAByte : 1003 ≤ 1004 ∧ 1000 ≤ 1000 ∧ 1000 < 2000 ∧ 2000 ≤ 2000 := by decide

theorem witness_ThrottleFloorIsLegalAndMapsToZero :
    (1000 ≤ 1000 ∧ 1000 < 2000) ∧ (1000 ≤ 1999 ∧ 1999 < 2000) ∧ (1000#16 : Half).toNat ≤ P0.thrFloor := by decide

/-- The first and the last byte of a buffer. -/
theorem witness_ReadTelemAnswersTheBuffer : (0 < 4 ∧ 0 < 4) ∧ (3 < 4 ∧ 3 < 4) := by decide

theorem witness_ReadStateAnswersEveryElement : 0 < 8 ∧ 7 < 8 := by decide

theorem witness_AdvanceInIdleAnswersIdle : State.reset.le.phase = .idle := by decide

/-- A state of a write step whose deadline has not been reached. -/
theorem noRebind_binding (step : BitVec 4) (aw busy : Bool) : NoRebind (binding step aw busy) :=
  .inl (by show (true && decide ((1000#32 - 5000#32 : Word).toNat < 2 ^ 31)) = false; decide)

theorem witness_BindWriteSendsTheTaggedFrame :
    ∀ n ∈ [1#4, 3#4, 5#4, 7#4], (binding n false false).le.phase = .binding ∧
      (binding n false false).le.awaitingWrite = false ∧ OddBindStep (binding n false false).le.step ∧
      NoRebind (binding n false false) :=
  fun n h => ⟨rfl, rfl, by simpa [binding] using h, noRebind_binding n false false⟩

theorem witness_BindFollowUpSwitchesToReceive :
    ∀ n ∈ [1#4, 3#4, 5#4, 7#4], (binding n true true).le.phase = .binding ∧
      (binding n true true).le.awaitingWrite = true ∧ OddBindStep (binding n true true).le.step ∧
      NoRebind (binding n true true) :=
  fun n h => ⟨rfl, rfl, by simpa [binding] using h, noRebind_binding n true true⟩

/-- Each read step, with the driver busy and not. -/
theorem witness_BindReadRestartsOrAdvances :
    ∀ busy : Bool, ∀ n ∈ [2#4, 4#4, 6#4], (binding n false busy).le.phase = .binding ∧
      (binding n false busy).le.awaitingWrite = false ∧
      ((binding n false busy).le.step = 2#4 ∨ (binding n false busy).le.step = 4#4 ∨ (binding n false busy).le.step = 6#4) ∧
      NoRebind (binding n false busy) ∧ (binding n false busy).inputs.draws.busy = busy :=
  fun busy n h => ⟨rfl, rfl, by simpa [binding] using h, noRebind_binding n false busy, rfl⟩

theorem witness_BindResolveLinksOrFallsBack :
    ∀ busy : Bool, (binding 8#4 false busy).le.phase = .binding ∧ (binding 8#4 false busy).le.awaitingWrite = false ∧
      (binding 8#4 false busy).le.step = 8#4 ∧ NoRebind (binding 8#4 false busy) ∧
      (binding 8#4 false busy).inputs.draws.rx[1] = 9#8 :=
  fun busy => ⟨rfl, rfl, rfl, noRebind_binding 8#4 false busy, rfl⟩

/-- Both policies, each branch of the table, and a deadline reached at its very millisecond (vector DL-2). -/
theorem witness_ExpiredDeadlineFollowsThePolicy :
    P0.deadlinePolicy = .ignore ∧ (binding 1#4 false false).le.phase = .binding ∧
    (OddBindStep (binding 7#4 false false).le.step ∧ (binding 7#4 false false).le.awaitingWrite = false) ∧
    (OddBindStep (binding 1#4 true false).le.step ∧ (binding 1#4 true false).le.awaitingWrite = true) ∧
    ((binding 6#4 false false).le.step = 6#4 ∧ (binding 6#4 false false).le.awaitingWrite = false) ∧
    ((binding 8#4 false false).le.step = 8#4 ∧ (binding 8#4 false false).le.awaitingWrite = false) ∧
    P1.deadlinePolicy = .rebind ∧ deadlineFires 5000#32 (binding 1#4 false false).le = true ∧
    deadlineFires 4999#32 (binding 1#4 false false).le = false :=
  ⟨rfl, rfl, by decide, by decide, by decide, by decide, rfl, by simp [deadlineFires, binding],
    by simp [deadlineFires, binding]⟩

/-- Step 0, step 9, step 15, and an even step that awaits a write. -/
theorem witness_UnlistedBindCombinationStops :
    (binding 0#4 false false).le.phase = .binding ∧ NoRebind (binding 0#4 false false) ∧
    (binding 0#4 false false).le.step = 0#4 ∧ 9 ≤ (binding 9#4 false false).le.step.toNat ∧
    9 ≤ (binding 15#4 true false).le.step.toNat ∧
    ((binding 8#4 true false).le.awaitingWrite = true ∧ ¬ OddBindStep (binding 8#4 true false).le.step) :=
  ⟨rfl, noRebind_binding 0#4 false false, rfl, by decide, by decide, rfl, by decide⟩

/-- Sub-steps 1 and 5, and a saturated frame count. -/
theorem witness_LinkTransmitSendsOneFrame :
    (linked 1#4 .transmit 0#3 false).le.phase = .linked ∧ (linked 1#4 .transmit 0#3 false).le.tphase = .transmit ∧
    (linked 5#4 .transmit 7#3 false).le.tphase = .transmit := by decide

theorem witness_LinkAwaitPollsUntilReady :
    (linked 2#4 .awaitTransmit 7#3 true).le.phase = .linked ∧
    (linked 2#4 .awaitTransmit 7#3 true).le.tphase = .awaitTransmit := by decide

/-- The first and the last poll. -/
theorem witness_LinkPollCountsAndDecodes :
    (linked 5#4 .pollReceive 0#3 false).le.phase = .linked ∧ (linked 5#4 .pollReceive 0#3 false).le.tphase = .pollReceive ∧
    (linked 5#4 .pollReceive 0#3 false).le.pollCount.toNat < 7 ∧
    (linked 5#4 .pollReceive 6#3 true).le.pollCount.toNat < 7 := by decide

/-- One legal state of each phase. -/
theorem witness_AdvanceAnswersInEveryLegalState :
    SequencerLegal State.reset.le ∧ SequencerLegal (binding 8#4 false true).le ∧ SequencerLegal (binding 7#4 true false).le ∧
    SequencerLegal (linked 5#4 .pollReceive 6#3 false).le :=
  ⟨by decide, by decide, by decide, by decide⟩

/-- Twelve answered invocations before the deadline. -/
theorem witness_AnsweredHandshakeLinksInTwelve :
    ∃ (s : State) (is : List Inputs) (rest : List Event),
      is.length = 12 ∧ s.events = advanceTrain is ++ rest ∧
      s.le.phase = .binding ∧ s.le.step = 1#4 ∧ s.le.awaitingWrite = false ∧
      (∀ i ∈ is, i.draws.busy = false ∧ deadlineFires i.nowMs s.le = false) ∧
      (∀ i, is.getLast? = some i → i.draws.rx[1] = 9#8) :=
  ⟨{ binding 1#4 false false with events := advanceTrain (List.replicate 12 (ins false 4999#32)) ++ [.reset] },
    List.replicate 12 (ins false 4999#32), [.reset], rfl, rfl, rfl, rfl, rfl,
    fun i h => by rw [List.eq_of_mem_replicate h]; decide,
    fun i h => by rw [← Option.some.inj (show some (ins false 4999#32) = some i from h)]; rfl⟩

theorem witness_SilentPeerRestartsWithSameSession :
    ∃ (s : State) (a b c : Inputs) (rest : List Event),
      s.events = advanceTrain [a, b, c] ++ rest ∧
      s.le.phase = .binding ∧ s.le.step = 1#4 ∧ s.le.awaitingWrite = false ∧ c.draws.busy = true ∧
      deadlineFires a.nowMs s.le = false ∧ deadlineFires b.nowMs s.le = false ∧ deadlineFires c.nowMs s.le = false :=
  ⟨{ binding 1#4 false false with events := advanceTrain [ins false 1#32, ins false 2#32, ins true 3#32] ++ [] },
    ins false 1#32, ins false 2#32, ins true 3#32, [], rfl, rfl, rfl, rfl, rfl, rfl, rfl, rfl⟩

/-- Sub-step 5 with two busy answers. -/
theorem witness_SubStepVisitTakesSevenPolls :
    ∃ (s : State) (tx ready : Inputs) (busies polls : List Inputs) (rest : List Event),
      s.le.phase = .linked ∧ s.le.tphase = .transmit ∧ 1 ≤ s.le.step.toNat ∧ s.le.step.toNat ≤ 5 ∧
      (∀ i ∈ busies, i.draws.busy = true) ∧ busies.length = 2 ∧ ready.draws.busy = false ∧ polls.length = 7 ∧
      s.events = advanceTrain (tx :: busies ++ ready :: polls) ++ rest :=
  ⟨{ linked 5#4 .transmit 7#3 false with events := advanceTrain (ins false 1#32 :: List.replicate 2 (ins true 2#32) ++
        ins false 3#32 :: List.replicate 7 (ins false 4#32)) ++ [.reset] },
    ins false 1#32, ins false 3#32, List.replicate 2 (ins true 2#32), List.replicate 7 (ins false 4#32), [.reset],
    rfl, rfl, by decide, by decide, fun i h => by rw [List.eq_of_mem_replicate h]; rfl, rfl, rfl, rfl, rfl⟩

theorem witness_DataFrameBytes :
    P0.frameOffsets = Config.frameOffsetsDefault ∧ (∀ i : Nat, P0.dataFill i = 0x00#8) := ⟨rfl, fun _ => rfl⟩

/-- A frame just before and just after ordinal 100 with the feature on, a byte of the fill, and offsets that are lawful. -/
theorem witness_DataAndExtendedFramesCarryTheirFields :
    (¬ (({ ConfigRegs.reset with extEnable := true } : ConfigRegs).extEnable = true ∧ 99 = 100) ∧
      ¬ (({ ConfigRegs.reset with extEnable := true } : ConfigRegs).extEnable = true ∧ 101 = 100)) ∧
    (1 ≤ 1 ∧ 1 ≤ 14 ∧ 1 ∉ P0.frameOffsets.thr :: P0.frameOffsets.tail) ∧
    ({ ConfigRegs.reset with extEnable := true } : ConfigRegs).extEnable = true ∧ mirrored.Lawful := by decide

/-- The last grace frame and the first one after it. -/
theorem witness_FlagsFollowTogglesAfterGrace : 100 ≤ 100 ∧ 100 < 101 := by decide

/-- The frame of ordinal 100 without the extended feature, and the frame of ordinal 101 with it. -/
theorem witness_DataFrameRoundTrip :
    ¬ (ConfigRegs.reset.extEnable = true ∧ 100 = 100) ∧
    (¬ (({ ConfigRegs.reset with extEnable := true } : ConfigRegs).extEnable = true ∧ 101 = 100) ∧ 100 < 101) := by decide

/-- The transmission of sub-step 1, as one step. -/
theorem witness_EveryTransmittedFrameValidates :
    ∃ (s t : State) (f : Frame) (n : Nat) (ch : Byte), step s = .next t ∧
      Output.driver (.writeFrame f n ch) ∈ t.outputsAfter s.log.length := by
  refine ⟨{ linked 1#4 .transmit 0#3 false with events := advanceTrain [ins false 1#32] ++ [] }, _,
    dataFrame Config.params CommandSet.reset 1 { ConfigRegs.reset with txPower := 0x07#8 }, 16, 0x28#8,
    (step_advance rfl).trans (advance_of_transmit rfl rfl), ?_⟩
  rw [linkTransmit_eq]
  exact List.mem_cons_of_mem _ (List.mem_cons_self ..)

/-- A frame of tag A, one of tag B, one of another tag, and one that does not validate (0xE7 + 0x19 and 0xE8 + 0x18 are
256). -/
theorem witness_TelemetryDecoderKeepsValidKnownFrames :
    (P0.verify ((Vector.replicate 16 0x00#8).set 0 0xE7#8 |>.set 15 0x19#8) = true ∧ P0.tagA = 0xE7#8) ∧
    (P0.verify ((Vector.replicate 16 0x00#8).set 0 0xE8#8 |>.set 15 0x18#8) = true ∧ P0.tagB = 0xE8#8) ∧
    (P0.verify (Vector.replicate 16 0x00#8) = true ∧ 0x00#8 ≠ P0.tagA ∧ 0x00#8 ≠ P0.tagB) ∧
    P0.verify ((Vector.replicate 16 0x00#8).set 0 0xE7#8) = false := by decide

/-- A legal state of the Linked phase with one LE.ADVANCE waiting, and the next state: the premises of every invariant
hold of it together. -/
def polling : State :=
  { linked 5#4 .awaitTransmit 7#3 false with
    le := { (linked 5#4 .awaitTransmit 7#3 false).le with channel := Config.params.allowlist[0] }
    events := advanceTrain [ins false 1#32] ++ [] }

theorem witness_SequencerStaysLegal : SequencerLegal polling.le ∧ ∃ t : State, step polling = .next t :=
  ⟨by decide, _, (step_advance rfl).trans (advance_of_await rfl rfl)⟩

theorem witness_PollCountStaysBelowTheBudget :
    PollLegal (linked 5#4 .pollReceive 6#3 false).le ∧ PollLegal polling.le ∧ ∃ t : State, step polling = .next t :=
  ⟨by decide, by decide, _, (step_advance rfl).trans (advance_of_await rfl rfl)⟩

theorem witness_ChannelAndDeadlineStayLegal :
    ChannelLegal Config.params polling.le ∧ DeadlineLegal polling.le ∧ ∃ t : State, step polling = .next t :=
  ⟨fun _ => by simp [polling], by decide, _, (step_advance rfl).trans (advance_of_await rfl rfl)⟩

theorem witness_DecoderStaysLegal : DecoderLegal capturing ∧
    ∃ t : State, step { bound with events := [.edge 0x03000001#32 101500#32] } = .next t :=
  ⟨⟨by decide, by simp [capturing, ChannelWidth, Config.pubInit],
    by simp [capturing, PulseDecoder.reset, ChannelWidth, Config.pubInit]⟩, _,
    step_pulse rfl (l := .line0) (p := .rising) (by decide) (by decide)⟩

theorem witness_TelemetryStaysValidated :
    TelemetryLegal Config.params polling.le ∧ ∃ t : State, step polling = .next t :=
  ⟨⟨rfl, rfl⟩, _, (step_advance rfl).trans (advance_of_await rfl rfl)⟩

theorem witness_MachineNeverStops : SequencerLegal (binding 8#4 false false).le := by decide

/-- A poll that receives a frame of tag A carrying its own checksum. -/
theorem poll_takes_frame_of_tag_A : ∃ s t : State, exec .leAdvance s = .next t ∧ t.le.telemValidA ≠ s.le.telemValidA := by
  let rx : Frame := framed Config.params ((Vector.replicate 15 0x00#8).set 0 Config.params.tagA)
  have hv : Config.params.verify rx = true := by
    unfold Params.verify
    rw [framed_pop, framed_last]
    simp
  have ht : rx[0] = Config.params.tagA := by simp [rx, framed]
  let s : State := { linked 1#4 .pollReceive 0#3 false with
    inputs := { ins false 0#32 with draws := { (ins false 0#32).draws with rx := rx } } }
  refine ⟨s, _, advance_of_poll (s := s) rfl rfl, ?_⟩
  rw [linkPoll_of_ready rfl]
  have hd : ((linked 1#4 .pollReceive 0#3 false).le.telemetryDecode Config.params rx).telemValidA = true := by
    simp [LinkEngine.telemetryDecode, hv, ht]
  have hc : ∀ le : LinkEngine, le.countPoll.telemValidA = le.telemValidA := by
    intro le
    rcases countPoll_cases le with ⟨_, e⟩ | ⟨_, e⟩ <;> rw [e]
  show ((linked 1#4 .pollReceive 0#3 false).le.telemetryDecode Config.params rx).countPoll.telemValidA ≠ false
  rw [hc, hd]
  decide

/-- Each clause's premise: a register of each group changes. -/
theorem witness_EveryRegisterHasItsWriter :
    (∃ s t : State, exec (.pdSetup .line0 .rising) s = .next t ∧ t.pd.enabled ≠ s.pd.enabled) ∧
    (∃ s t : State, exec (.pdEdge .line0 .rising) s = .next t ∧ t.pd.lastEdgeTime ≠ s.pd.lastEdgeTime) ∧
    (∃ s t : State, exec .pdRead s = .next t ∧ t.pd.published ≠ s.pd.published) ∧
    (∃ s t : State, exec .pdRead s = .next t ∧ t.pd.fresh ≠ s.pd.fresh) ∧
    (∃ s t : State, exec (.leSetCommand .flip 1500#16) s = .next t ∧ t.le.cmd ≠ s.le.cmd) ∧
    (∃ s t : State, exec (.leSetConfig .forceBind 1#16) s = .next t ∧ t.cfg ≠ s.cfg) ∧
    (∃ s t : State, exec .leAdvance s = .next t ∧ t.le.telemValidA ≠ s.le.telemValidA) ∧
    (∃ s t : State, exec .leBeginBind s = .next t ∧ t.le.phase ≠ s.le.phase) :=
  ⟨⟨State.reset, _, rfl, by decide⟩,
    ⟨{ bound with inputs := { ins false 0#32 with nowUs := 101400#32 } }, _, rfl, by decide⟩,
    ⟨{ bound with pd := { capturing with raw := #v[800#16, 1500#16, 1500#16, 1500#16, 1500#16, 1500#16, 1500#16, 1500#16] } },
      _, rfl, by decide⟩,
    ⟨{ bound with pd := { capturing with fresh := true } }, _, rfl, by decide⟩,
    ⟨State.reset, _, rfl, by decide⟩, ⟨State.reset, _, rfl, by decide⟩, poll_takes_frame_of_tag_A,
    ⟨{ State.reset with inputs := ins false 0#32 }, _, rfl, by decide⟩⟩

theorem witness_SessionChangesOnlyAtABind :
    ∃ s t : State, exec .leBeginBind s = .next t ∧ t.le.sessionId ≠ s.le.sessionId :=
  ⟨{ State.reset with inputs := ins false 0#32 }, _, rfl, by decide⟩

theorem witness_OnlyBeginBindLeavesLinked :
    ∃ t : State, exec .leBeginBind (linked 3#4 .pollReceive 4#3 false) = .next t ∧
      (linked 3#4 .pollReceive 4#3 false).le.phase = .linked ∧ t.le.phase ≠ .linked :=
  ⟨_, rfl, rfl, by decide⟩

/-- A write step, a read step and the resolution, each answering. -/
theorem witness_BindStepsMoveForwardOrBack :
    ∀ n ∈ [1#4, 6#4, 8#4], (binding n false false).le.phase = .binding ∧ NoRebind (binding n false false) ∧
      ∃ t : State, exec .leAdvance (binding n false false) = .next t := by
  intro n h
  refine ⟨rfl, noRebind_binding n false false, ?_⟩
  simp only [List.mem_cons, List.not_mem_nil, or_false] at h
  rcases h with rfl | rfl | rfl
  · exact ⟨_, advance_of_branch (s := binding 1#4 false false) (b := .write) rfl (noRebind_binding ..) (by decide)⟩
  · exact ⟨_, advance_of_branch (s := binding 6#4 false false) (b := .read) rfl (noRebind_binding ..) (by decide)⟩
  · exact ⟨_, advance_of_branch (s := binding 8#4 false false) (b := .resolve) rfl (noRebind_binding ..) (by decide)⟩

/-- A count that a bind attempt clears, and one that a transmission raises to its last value. -/
theorem witness_FrameCounterCountsAndSaturates :
    (∃ s t : State, exec .leBeginBind s = .next t ∧ t.le.frameCount ≠ s.le.frameCount) ∧
    (∃ s t : State, exec .leAdvance s = .next t ∧ t.le.frameCount ≠ s.le.frameCount ∧ t.le.frameCount = 0xFFFFFFFF#32) := by
  let s : State := { linked 2#4 .transmit 0#3 false with
    le := { (linked 2#4 .transmit 0#3 false).le with frameCount := 0xFFFFFFFE#32 } }
  refine ⟨⟨s, _, rfl, by decide⟩, ⟨s, _, advance_of_transmit (s := s) rfl rfl, ?_, ?_⟩⟩ <;>
    rw [linkTransmit_eq] <;> decide

theorem witness_ResponseDataLengths :
    Instr.leReadState.port = .cmd ∧ (∃ t : State, exec .leReadState State.reset = .next t) ∧
    (∃ t : State, exec (.pdEdge .line0 .rising) State.reset = .next t) :=
  ⟨rfl, ⟨_, rfl⟩, ⟨_, rfl⟩⟩

theorem witness_StepQueriesBusyAtMostOnce : ∃ t : State, step polling = .next t :=
  ⟨_, (step_advance rfl).trans (advance_of_await rfl rfl)⟩

/-- Two states that agree in one unit and differ in the other, each taking the same event. -/
theorem witness_UnitsShareNothing :
    (polling.pd = ({ State.reset with events := polling.events } : State).pd ∧
      polling.le ≠ ({ State.reset with events := polling.events } : State).le ∧
      (∃ t : State, step { State.reset with events := polling.events } = .next t)) ∧
    (({ bound with events := polling.events } : State).le = ({ State.reset with events := polling.events } : State).le ∧
      bound.pd ≠ State.reset.pd ∧ (∃ t : State, step { bound with events := polling.events } = .next t)) :=
  ⟨⟨rfl, fun h => absurd (congrArg LinkEngine.phase h) (by decide), _, rfl⟩, ⟨rfl, by decide, _, rfl⟩⟩

end Sys2Proof.Tests
end

section
/-! PROOF of O59 (00_scope.md R3), as two-run noninterference. Two runs on one event take the same branch of a step
(`step_lockstep`). On the decoder's side, every Link Engine operation keeps `pd`. On the link's side, every operation is
`LinkLocal`: what it makes of the Link Engine and the configuration, and the transactions it issues, are the same from
any two states that agree in `le`, `cfg` and the latched inputs. -/
namespace Sys2Proof.Machine

/-! ## One event, two runs -/

theorem step_of_no_event {s : State} (he : s.events = []) : step s = .next s := by
  simp only [step, fetch, he]

theorem step_reset {s : State} {es : List Event} (he : s.events = .reset :: es) :
    step s = .next ({ s with events := es } : State).resetEvent := by
  simp only [step, fetch, he, fetchEvent]

theorem step_illegal {s : State} {w us ms : Word} {d : Draws} {es : List Event} {op : Byte}
    (he : s.events = .cmd w us ms d :: es) (hd : decode .cmd w = .illegal op) :
    step s = .next ((({ s with events := es } : State).latchCmd us ms d).raise .illegal) := by
  simp only [step, fetch, he, fetchEvent, hd, fetchDecoded]

theorem step_discarded {s : State} {w us : Word} {es : List Event} {op : Byte}
    (he : s.events = .edge w us :: es) (hd : decode .edge w = .discarded op) :
    step s = .next (({ s with events := es } : State).latchEdge us) := by
  simp only [step, fetch, he, fetchEvent, hd, fetchDecoded]

/-- The EDGE port carries no instruction but PD.EDGE (30_encoding.md R90). -/
theorem decode_edge_eq_pdEdge {w : Word} {i : Instr} (h : decode .edge w = .instr i) : ∃ l p, i = .pdEdge l p := by
  simp only [decode, decodeEdge] at h
  split at h
  · exact ⟨_, _, (Decoded.instr.inj h).symm⟩
  · cases h

/-- Two steps on the same events take the same branch, with the same inputs latched from the event. -/
theorem step_lockstep {s s' t t' : State} (hev : s.events = s'.events) (h : step s = .next t) (h' : step s' = .next t') :
    (t = s ∧ t' = s') ∨
    (∃ es, t = ({ s with events := es } : State).resetEvent ∧ t' = ({ s' with events := es } : State).resetEvent) ∨
    (∃ us ms d es i, exec i (({ s with events := es } : State).latchCmd us ms d) = .next t ∧
      exec i (({ s' with events := es } : State).latchCmd us ms d) = .next t') ∨
    (∃ us ms d es, t = (({ s with events := es } : State).latchCmd us ms d).raise .illegal ∧
      t' = (({ s' with events := es } : State).latchCmd us ms d).raise .illegal) ∨
    (∃ us es l p, exec (.pdEdge l p) (({ s with events := es } : State).latchEdge us) = .next t ∧
      exec (.pdEdge l p) (({ s' with events := es } : State).latchEdge us) = .next t') ∨
    (∃ us es, t = ({ s with events := es } : State).latchEdge us ∧
      t' = ({ s' with events := es } : State).latchEdge us) := by
  rcases step_cases h with ⟨he, ht⟩ | ⟨es, he, ht⟩ | ⟨w, us, ms, d, es, i, he, hd, ht⟩ |
    ⟨w, us, ms, d, es, op, he, hd, ht⟩ | ⟨w, us, es, i, he, hd, ht⟩ | ⟨w, us, es, op, he, hd, ht⟩ <;> rw [hev] at he
  · rw [step_of_no_event he] at h'
    exact .inl ⟨ht, (Host.Outcome.next.inj h').symm⟩
  · rw [step_reset he] at h'
    exact .inr (.inl ⟨es, ht, (Host.Outcome.next.inj h').symm⟩)
  · rw [step_cmd he hd] at h'
    exact .inr (.inr (.inl ⟨us, ms, d, es, i, ht, h'⟩))
  · rw [step_illegal he hd] at h'
    exact .inr (.inr (.inr (.inl ⟨us, ms, d, es, ht, (Host.Outcome.next.inj h').symm⟩)))
  · obtain ⟨l, p, rfl⟩ := decode_edge_eq_pdEdge hd
    rw [step_edge he hd] at h'
    exact .inr (.inr (.inr (.inr (.inl ⟨us, es, l, p, ht, h'⟩))))
  · rw [step_discarded he hd] at h'
    exact .inr (.inr (.inr (.inr (.inr ⟨us, es, ht, (Host.Outcome.next.inj h').symm⟩))))

/-! ## The Link Engine's operations keep the Pulse Decoder -/

section KeepsDecoder

variable (P : Params) (s : State)

@[simp] theorem beginBind_pd (d : List Word) : (s.beginBind P d).pd = s.pd := by
  cases h : s.inputs.draws.initOk
  · rw [beginBind_of_initFail h]
  · rw [beginBind_of_initOk h]

@[simp] theorem bindWrite_pd : (bindWrite P s).pd = s.pd := by rw [bindWrite_eq]

@[simp] theorem bindFollowUp_pd : (bindFollowUp P s).pd = s.pd := by rw [bindFollowUp_eq]

@[simp] theorem bindRead_pd : (bindRead P s).pd = s.pd := by
  cases h : s.inputs.draws.busy
  · rw [bindRead_of_ready h]
  · rw [bindRead_of_busy h]

@[simp] theorem bindResolve_pd : (bindResolve P s).pd = s.pd := by
  unfold bindResolve
  split_ifs <;> simp

@[simp] theorem linkTransmit_pd : (linkTransmit P s).pd = s.pd := by rw [linkTransmit_eq]

@[simp] theorem linkAwait_pd : (linkAwait P s).pd = s.pd := by
  cases h : s.inputs.draws.busy
  · rw [linkAwait_of_ready h]
  · rw [linkAwait_of_busy h]

@[simp] theorem linkPoll_pd : (linkPoll P s).pd = s.pd := by
  cases h : s.inputs.draws.busy
  · rw [linkPoll_of_ready h]
  · rw [linkPoll_of_busy h]

@[simp] theorem setCommand_pd (id : CommandId) (v : Half) : (s.setCommand P id v).pd = s.pd := by
  unfold State.setCommand
  split <;> rfl

theorem advance_pd {P : Params} {s t : State} (h : advance P s = .next t) : t.pd = s.pd := by
  rcases advance_cases h with ⟨-, rfl⟩ | ⟨-, -, -, rfl⟩ | ⟨-, -, rfl⟩ | ⟨-, -, rfl⟩ | ⟨-, -, rfl⟩ | ⟨-, -, rfl⟩ |
    ⟨-, -, rfl⟩ | ⟨-, -, rfl⟩ | ⟨-, -, rfl⟩ <;> simp

theorem execLeSetConfig_pd {id : ConfigId} {v : Half} {s t : State} (h : execLeSetConfig id v s = .next t) :
    t.pd = s.pd := by
  unfold execLeSetConfig at h
  split at h <;> cases h <;> rfl

end KeepsDecoder

/-! ## The Pulse Decoder's side of a step -/

/-- The operands alone decide whether PD.SETUP binds or answers CONFIG_ERROR (40_pulse_decoder.md R121). -/
theorem execPdSetup_cases (l : LineField) (p : PolField) :
    (∃ a b, ∀ s : State, execPdSetup l p s =
      .next (({ s with pd := { s.pd with line := a, polarity := b, enabled := true } } : State).respond .ok [])) ∨
    ∀ s : State, execPdSetup l p s = .next (s.raise .configError) := by
  cases hl : l.line? with
  | none => exact .inr fun s => by simp [execPdSetup, hl]
  | some a =>
    cases hp : p.polarity? with
    | none => exact .inr fun s => by simp [execPdSetup, hl, hp]
    | some b => exact .inl ⟨a, b, fun s => by simp [execPdSetup, hl, hp]⟩

theorem execPdEdge_eq (l : LineField) (p : PolField) (s : State) :
    execPdEdge l p s =
      .next { s with pd := if s.pd.qualifies l p = true then s.pd.onEdge s.inputs.nowUs else s.pd } := by
  unfold execPdEdge
  split <;> rfl

/-- What an instruction makes of the Pulse Decoder depends on the Pulse Decoder and the microsecond clock alone. -/
theorem exec_pd_eq {i : Instr} {s s' t t' : State} (hpd : s.pd = s'.pd) (hus : s.inputs.nowUs = s'.inputs.nowUs)
    (h : exec i s = .next t) (h' : exec i s' = .next t') : t.pd = t'.pd := by
  cases i with
  | pdSetup l p =>
    simp only [exec] at h h'
    rcases execPdSetup_cases l p with ⟨a, b, e⟩ | e <;> rw [e] at h h' <;> cases h <;> cases h' <;> simp [hpd]
  | pdRead => cases h; cases h'; simp [hpd]
  | pdEdge l p =>
    simp only [exec, execPdEdge_eq] at h h'
    cases h; cases h'; simp [hpd, hus]
  | leBeginBind => cases h; cases h'; simp [hpd]
  | leSetCommand id v => cases h; cases h'; simp [hpd]
  | leAdvance => rw [advance_pd h, advance_pd h', hpd]
  | leSetConfig id v => rw [execLeSetConfig_pd h, execLeSetConfig_pd h', hpd]
  | leReadTelem sel => cases h; cases h'; exact hpd
  | leReadState => cases h; cases h'; exact hpd

/-- 00_scope.md R3, the Pulse Decoder's half. -/
theorem step_pd_eq {s s' t t' : State} (hpd : s.pd = s'.pd) (hev : s.events = s'.events) (h : step s = .next t)
    (h' : step s' = .next t') : t.pd = t'.pd := by
  rcases step_lockstep hev h h' with ⟨rfl, rfl⟩ | ⟨es, rfl, rfl⟩ | ⟨us, ms, d, es, i, hx, hx'⟩ |
    ⟨us, ms, d, es, rfl, rfl⟩ | ⟨us, es, l, p, hx, hx'⟩ | ⟨us, es, rfl, rfl⟩
  · exact hpd
  · rfl
  · exact exec_pd_eq (by simpa using hpd) (by simp) hx hx'
  · exact hpd
  · exact exec_pd_eq (by simpa using hpd) (by simp) hx hx'
  · exact hpd

/-! ## The link's side of a step -/

/-- The link's side of going from `s` to `t`: the Link Engine and the configuration reached, and the driver transactions
issued on the way. The responses are left out: LE.READ_STATE shows both units (20_memory.md R61). -/
def linkEffect (s t : State) : LinkEngine × ConfigRegs × List DriverTxn :=
  (t.le, t.cfg, transactionsOf (t.outputsAfter s.log.length))

/-- What `linkEffect` says of a state that is `s` with outputs appended. -/
theorem linkEffect_of_log {s t : State} {out : List Output} (h : t.log = s.log ++ out) :
    linkEffect s t = (t.le, t.cfg, transactionsOf out) := by
  simp [linkEffect, State.outputsAfter, h]

theorem linkEffect_eq_of_log_eq {s s' t t' : State} (hle : t.le = t'.le) (hcfg : t.cfg = t'.cfg) (h : t.log = s.log)
    (h' : t'.log = s'.log) : linkEffect s t = linkEffect s' t' := by
  simp [linkEffect, State.outputsAfter, hle, hcfg, h, h']

/-- A response, whatever it says, is no transaction. -/
theorem linkEffect_eq_of_response {s s' t t' : State} {st st' : Status} {d d' : List Word} (hle : t.le = t'.le)
    (hcfg : t.cfg = t'.cfg) (h : t.log = s.log ++ [.response st d]) (h' : t'.log = s'.log ++ [.response st' d']) :
    linkEffect s t = linkEffect s' t' := by
  rw [linkEffect_of_log h, linkEffect_of_log h', hle, hcfg]
  rfl

/-- The two states look the same to the link. -/
structure SameLink (s s' : State) : Prop where
  le : s.le = s'.le
  cfg : s.cfg = s'.cfg
  inputs : s.inputs = s'.inputs

/-- An operation whose link's side depends on the Link Engine, the configuration and the latched inputs alone. -/
def LinkLocal (f : State → State) : Prop :=
  ∀ s s' : State, SameLink s s' → linkEffect s (f s) = linkEffect s' (f s')

theorem linkLocal_beginBind (P : Params) (d : List Word) : LinkLocal (State.beginBind P d) := by
  rintro s s' ⟨hle, hcfg, hin⟩
  cases hi : s'.inputs.draws.initOk
  · rw [beginBind_of_initFail (hin ▸ hi), beginBind_of_initFail hi, linkEffect_of_log rfl, linkEffect_of_log rfl,
      hle, hcfg]
  · rw [beginBind_of_initOk (hin ▸ hi), beginBind_of_initOk hi, linkEffect_of_log rfl, linkEffect_of_log rfl,
      hle, hcfg, hin]

theorem linkLocal_bindWrite (P : Params) : LinkLocal (bindWrite P) := by
  rintro s s' ⟨hle, hcfg, -⟩
  rw [bindWrite_eq, bindWrite_eq, linkEffect_of_log rfl, linkEffect_of_log rfl, hle, hcfg]

theorem linkLocal_bindFollowUp (P : Params) : LinkLocal (bindFollowUp P) := by
  rintro s s' ⟨hle, hcfg, -⟩
  rw [bindFollowUp_eq, bindFollowUp_eq, linkEffect_of_log rfl, linkEffect_of_log rfl, hle, hcfg]

theorem linkLocal_bindRead (P : Params) : LinkLocal (bindRead P) := by
  rintro s s' ⟨hle, hcfg, hin⟩
  cases hb : s'.inputs.draws.busy
  · rw [bindRead_of_ready (hin ▸ hb), bindRead_of_ready hb]
    simp [linkEffect, State.outputsAfter, hle, hcfg, hin]
  · rw [bindRead_of_busy (hin ▸ hb), bindRead_of_busy hb, linkEffect_of_log rfl, linkEffect_of_log rfl, hle, hcfg]

/-- Step 8 resolves by the busy answer, the received sentinel and `cfg.forceBind`, which the link's side holds. -/
theorem linkLocal_bindResolve (P : Params) : LinkLocal (bindResolve P) := by
  rintro s s' ⟨hle, hcfg, hin⟩
  by_cases hlink : s'.cfg.forceBind = true ∨
      (s'.inputs.draws.busy = false ∧ s'.inputs.draws.rx[1] = Config.sentinel)
  · rw [bindResolve_of_link (by rw [hcfg, hin]; exact hlink), bindResolve_of_link hlink,
      linkEffect_of_log rfl, linkEffect_of_log rfl, hle, hcfg]
  · rw [not_or, Bool.not_eq_true] at hlink
    obtain ⟨hf, hr⟩ := hlink
    cases hb : s'.inputs.draws.busy
    · have hr : s'.inputs.draws.rx[1] ≠ Config.sentinel := fun e => hr ⟨hb, e⟩
      rw [bindResolve_of_retry (hin ▸ hb) (hcfg ▸ hf) (hin ▸ hr), bindResolve_of_retry hb hf hr,
        linkEffect_of_log rfl, linkEffect_of_log rfl, hle, hcfg]
    · rw [bindResolve_of_busy (hin ▸ hb) (hcfg ▸ hf), bindResolve_of_busy hb hf,
        linkEffect_of_log rfl, linkEffect_of_log rfl, hle, hcfg]

theorem linkLocal_linkTransmit (P : Params) : LinkLocal (linkTransmit P) := by
  rintro s s' ⟨hle, hcfg, -⟩
  rw [linkTransmit_eq, linkTransmit_eq]
  simp [linkEffect, State.outputsAfter, hle, hcfg]

theorem linkLocal_linkAwait (P : Params) : LinkLocal (linkAwait P) := by
  rintro s s' ⟨hle, hcfg, hin⟩
  cases hb : s'.inputs.draws.busy
  · rw [linkAwait_of_ready (hin ▸ hb), linkAwait_of_ready hb, linkEffect_of_log rfl, linkEffect_of_log rfl, hle, hcfg]
  · rw [linkAwait_of_busy (hin ▸ hb), linkAwait_of_busy hb, linkEffect_of_log rfl, linkEffect_of_log rfl, hle, hcfg]

theorem linkLocal_linkPoll (P : Params) : LinkLocal (linkPoll P) := by
  rintro s s' ⟨hle, hcfg, hin⟩
  cases hb : s'.inputs.draws.busy
  · rw [linkPoll_of_ready (hin ▸ hb), linkPoll_of_ready hb, linkEffect_of_log rfl, linkEffect_of_log rfl,
      hle, hcfg, hin]
  · rw [linkPoll_of_busy (hin ▸ hb), linkPoll_of_busy hb, linkEffect_of_log rfl, linkEffect_of_log rfl, hle, hcfg]

theorem linkLocal_advanceLinked (P : Params) : LinkLocal (advanceLinked P) := by
  intro s s' hs
  unfold advanceLinked
  rw [hs.le]
  cases s'.le.tphase with
  | transmit => exact linkLocal_linkTransmit P s s' hs
  | awaitTransmit => exact linkLocal_linkAwait P s s' hs
  | pollReceive => exact linkLocal_linkPoll P s s' hs

theorem linkLocal_setCommand (P : Params) (id : CommandId) (v : Half) : LinkLocal (State.setCommand P id v) := by
  rintro s s' ⟨hle, hcfg, -⟩
  unfold State.setCommand
  rw [hle]
  cases s'.le.cmd.ingest P id v with
  | none => exact linkEffect_eq_of_response hle hcfg rfl rfl
  | some cmd => exact linkEffect_eq_of_response rfl hcfg rfl rfl

/-- Which branch of Binding runs, and what it does, is the link's own affair. -/
theorem advanceBinding_linkEffect_eq {P : Params} {s s' t t' : State} (hs : SameLink s s')
    (h : advanceBinding P s = .next t) (h' : advanceBinding P s' = .next t') : linkEffect s t = linkEffect s' t' := by
  simp only [advanceBinding, hs.le, hs.inputs] at h h'
  split at h
  · rename_i hd
    rw [if_pos hd] at h'
    cases h; cases h'
    exact linkLocal_beginBind P _ s s' hs
  · rename_i hd
    rw [if_neg hd] at h'
    cases hb : bindBranch s'.le.step s'.le.awaitingWrite with
    | none => simp only [hb] at h; cases h
    | some b =>
      simp only [hb] at h h'
      cases b with
      | write => cases h; cases h'; exact linkLocal_bindWrite P s s' hs
      | followUp => cases h; cases h'; exact linkLocal_bindFollowUp P s s' hs
      | read => cases h; cases h'; exact linkLocal_bindRead P s s' hs
      | resolve => cases h; cases h'; exact linkLocal_bindResolve P s s' hs

/-- LE.ADVANCE dispatches on the phase, which the two states share. -/
theorem advance_linkEffect_eq {P : Params} {s s' t t' : State} (hs : SameLink s s')
    (h : advance P s = .next t) (h' : advance P s' = .next t') : linkEffect s t = linkEffect s' t' := by
  unfold advance at h h'
  rw [hs.le] at h
  cases hp : s'.le.phase <;> simp only [hp] at h h'
  case idle => cases h; cases h'; exact linkEffect_eq_of_response hs.le hs.cfg rfl rfl
  case binding => exact advanceBinding_linkEffect_eq hs h h'
  case linked => cases h; cases h'; exact linkLocal_advanceLinked P s s' hs

theorem execLeSetConfig_linkEffect_eq {id : ConfigId} {v : Half} {s s' t t' : State} (hs : SameLink s s')
    (h : execLeSetConfig id v s = .next t) (h' : execLeSetConfig id v s' = .next t') :
    linkEffect s t = linkEffect s' t' := by
  unfold execLeSetConfig at h h'
  rw [hs.cfg] at h
  cases hw : s'.cfg.write id v <;> simp only [hw] at h h' <;> cases h <;> cases h'
  case none => exact linkEffect_eq_of_response hs.le hs.cfg rfl rfl
  case some cfg => exact linkEffect_eq_of_response hs.le rfl rfl rfl

/-- PD.EDGE has no link's side: here the latched inputs need not agree. -/
theorem pdEdge_linkEffect_eq {l : LineField} {p : PolField} {s s' t t' : State} (hle : s.le = s'.le)
    (hcfg : s.cfg = s'.cfg) (h : exec (.pdEdge l p) s = .next t) (h' : exec (.pdEdge l p) s' = .next t') :
    linkEffect s t = linkEffect s' t' := by
  simp only [exec, execPdEdge_eq] at h h'
  cases h; cases h'
  exact linkEffect_eq_of_log_eq hle hcfg rfl rfl

/-- The link's side of an instruction depends on the Link Engine, the configuration and the latched inputs alone. -/
theorem exec_linkEffect_eq {i : Instr} {s s' t t' : State} (hs : SameLink s s') (h : exec i s = .next t)
    (h' : exec i s' = .next t') : linkEffect s t = linkEffect s' t' := by
  cases i with
  | pdSetup l p =>
    simp only [exec] at h h'
    rcases execPdSetup_cases l p with ⟨a, b, e⟩ | e <;> rw [e] at h h' <;> cases h <;> cases h' <;>
      exact linkEffect_eq_of_response hs.le hs.cfg rfl rfl
  | pdRead => cases h; cases h'; exact linkEffect_eq_of_response hs.le hs.cfg rfl rfl
  | pdEdge l p => exact pdEdge_linkEffect_eq hs.le hs.cfg h h'
  | leBeginBind => cases h; cases h'; exact linkLocal_beginBind _ _ s s' hs
  | leSetCommand id v => cases h; cases h'; exact linkLocal_setCommand _ id v s s' hs
  | leAdvance => exact advance_linkEffect_eq hs h h'
  | leSetConfig id v => exact execLeSetConfig_linkEffect_eq hs h h'
  | leReadTelem sel => cases h; cases h'; exact linkEffect_eq_of_response hs.le hs.cfg rfl rfl
  | leReadState => cases h; cases h'; exact linkEffect_eq_of_response hs.le hs.cfg rfl rfl

/-- 00_scope.md R3, the link's half. An edge latches only its time, so the other inputs may still differ there;
PD.EDGE and a dropped word have no link's side that could show it. -/
theorem step_linkEffect_eq {s s' t t' : State} (hle : s.le = s'.le) (hcfg : s.cfg = s'.cfg)
    (hev : s.events = s'.events) (h : step s = .next t) (h' : step s' = .next t') :
    linkEffect s t = linkEffect s' t' := by
  rcases step_lockstep hev h h' with ⟨rfl, rfl⟩ | ⟨es, rfl, rfl⟩ | ⟨us, ms, d, es, i, hx, hx'⟩ |
    ⟨us, ms, d, es, rfl, rfl⟩ | ⟨us, es, l, p, hx, hx'⟩ | ⟨us, es, rfl, rfl⟩
  · exact linkEffect_eq_of_log_eq hle hcfg rfl rfl
  · exact linkEffect_eq_of_log_eq rfl rfl rfl rfl
  · exact exec_linkEffect_eq (s := ({ s with events := es } : State).latchCmd us ms d)
      (s' := ({ s' with events := es } : State).latchCmd us ms d) ⟨hle, hcfg, rfl⟩ hx hx'
  · exact linkEffect_eq_of_response hle hcfg rfl rfl
  · exact pdEdge_linkEffect_eq (s := ({ s with events := es } : State).latchEdge us)
      (s' := ({ s' with events := es } : State).latchEdge us) hle hcfg hx hx'
  · exact linkEffect_eq_of_log_eq hle hcfg rfl rfl

/-- Settles O59: two runs on one event take the same branch, and neither unit's side of it reads the other's state. -/
theorem unitsShareNothing : Obligations.UnitsShareNothing := by
  refine ⟨fun s s' t t' => step_pd_eq, fun s s' t t' hle hcfg hev h h' => ?_⟩
  have e := step_linkEffect_eq hle hcfg hev h h'
  simpa only [linkEffect, Prod.mk.injEq] using e

end Sys2Proof.Machine
end

section
/-! PROOF of O49 (10_state.md R30). The Pulse Decoder has four writers: RESET, PD.SETUP, PD.READ and a qualifying edge
(`exec_pd_cases`). The invariant turns on the edge: an index goes up only from below 8, and the only entry ever captured
is a width that passed the range test, which its 16 bits hold exactly. -/
namespace Sys2Proof.Machine

/-! ## What an instruction makes of the Pulse Decoder -/

/-- Everything an instruction that answers can have done to the Pulse Decoder. -/
theorem exec_pd_cases {i : Instr} {s t : State} (h : exec i s = .next t) :
    t.pd = s.pd ∨
    (∃ l p a b, i = .pdSetup l p ∧ t.pd = { s.pd with line := a, polarity := b, enabled := true }) ∨
    (i = .pdRead ∧ t.pd = { s.pd with published := s.pd.raw, fresh := false }) ∨
    (∃ l p, i = .pdEdge l p ∧ s.pd.qualifies l p = true ∧ t.pd = s.pd.onEdge s.inputs.nowUs) := by
  cases i with
  | pdSetup l p =>
    simp only [exec] at h
    rcases execPdSetup_cases l p with ⟨a, b, e⟩ | e <;> rw [e] at h <;> cases h
    · exact .inr (.inl ⟨l, p, a, b, rfl, rfl⟩)
    · exact .inl rfl
  | pdRead => cases h; exact .inr (.inr (.inl ⟨rfl, rfl⟩))
  | pdEdge l p =>
    simp only [exec, execPdEdge_eq] at h
    cases h
    by_cases hq : s.pd.qualifies l p = true
    · exact .inr (.inr (.inr ⟨l, p, rfl, hq, if_pos hq⟩))
    · exact .inl (if_neg hq)
  | leBeginBind => cases h; exact .inl (beginBind_pd ..)
  | leSetCommand id v => cases h; exact .inl (setCommand_pd ..)
  | leAdvance => exact .inl (advance_pd h)
  | leSetConfig id v => exact .inl (execLeSetConfig_pd h)
  | leReadTelem sel => cases h; exact .inl rfl
  | leReadState => cases h; exact .inl rfl

/-! ## Channel widths -/

theorem channelWidth_pubInit : ChannelWidth Config.pubInit := .inl rfl

/-- The 16 captured bits of an accepted width are the width itself: PW_MAX is below 2^16 (40_pulse_decoder.md R125). -/
theorem channelWidth_of_pulseInRange {w : Word} (h : pulseInRange w = true) : ChannelWidth (w.extractLsb' 0 16) := by
  obtain ⟨hlo, hhi⟩ := (pulseInRange_iff w).1 h
  have hw : (w.extractLsb' 0 16).toNat = w.toNat := by
    simp only [BitVec.extractLsb'_toNat, Nat.shiftRight_zero]
    omega
  exact .inr (hw.symm ▸ ⟨hlo, hhi⟩)

/-- Capturing a channel width leaves every entry a channel width. -/
theorem channelWidth_of_mem_set {v : Vector Half 8} {k : Nat} {x : Half} (hk : k < 8)
    (hv : ∀ w ∈ v.toList, ChannelWidth w) (hx : ChannelWidth x) : ∀ w ∈ (v.set k x hk).toList, ChannelWidth w := by
  intro w hw
  rw [Vector.toList_set] at hw
  rcases List.mem_or_eq_of_mem_set hw with hmem | rfl
  · exact hv w hmem
  · exact hx

/-! ## The invariant -/

/-- An index below 8 goes up without wrapping, so it stays at most NCH (10_state.md R25). -/
theorem index_succ_le_nch {n : BitVec 4} (h : n.toNat < 8) : (n + 1#4).toNat ≤ Config.nch := by
  show (n + 1#4).toNat ≤ 8
  bv_omega

theorem decoderLegal_reset : DecoderLegal .reset := by
  have hinit : ∀ w ∈ (Vector.replicate 8 Config.pubInit).toList, ChannelWidth w := by
    intro w hw
    rw [Vector.toList_replicate] at hw
    exact List.eq_of_mem_replicate hw ▸ channelWidth_pubInit
  exact ⟨Nat.le_refl 8, hinit, hinit⟩

theorem onEdge_decoderLegal {pd : PulseDecoder} (hl : DecoderLegal pd) (us : Word) : DecoderLegal (pd.onEdge us) := by
  obtain ⟨hindex, hraw, hpub⟩ := hl
  rcases onEdge_cases us pd with ⟨-, e⟩ | ⟨-, hi, hr, e⟩ | ⟨-, hi, -, e⟩ | ⟨-, -, e⟩ <;> rw [e]
  · exact ⟨Nat.zero_le _, hraw, hpub⟩
  · exact ⟨index_succ_le_nch hi, channelWidth_of_mem_set hi hraw (channelWidth_of_pulseInRange hr), hpub⟩
  · exact ⟨index_succ_le_nch hi, hraw, hpub⟩
  · exact ⟨hindex, hraw, hpub⟩

theorem exec_decoderLegal {i : Instr} {s t : State} (hl : DecoderLegal s.pd) (h : exec i s = .next t) :
    DecoderLegal t.pd := by
  obtain ⟨hindex, hraw, hpub⟩ := hl
  rcases exec_pd_cases h with e | ⟨_, _, _, _, -, e⟩ | ⟨-, e⟩ | ⟨_, _, -, -, e⟩ <;> rw [e]
  · exact ⟨hindex, hraw, hpub⟩
  · exact ⟨hindex, hraw, hpub⟩
  · exact ⟨hindex, hraw, hraw⟩
  · exact onEdge_decoderLegal ⟨hindex, hraw, hpub⟩ _

/-- Settles O49, by the kinds of step: only RESET and an instruction write the Pulse Decoder, and both keep it legal. -/
theorem decoderStaysLegal : Obligations.DecoderStaysLegal := by
  intro s t hl h
  rcases step_cases h with ⟨-, rfl⟩ | ⟨_, -, rfl⟩ | ⟨_, _, _, _, _, _, -, -, hx⟩ | ⟨_, _, _, _, _, _, -, -, rfl⟩ |
    ⟨_, _, _, _, -, -, hx⟩ | ⟨_, _, _, _, -, -, rfl⟩
  · exact hl
  · exact decoderLegal_reset
  · exact exec_decoderLegal (by simpa using hl) hx
  · exact hl
  · exact exec_decoderLegal (by simpa using hl) hx
  · exact hl

end Sys2Proof.Machine
end

section
/-! PROOF of O22 and O23 (20_memory.md R61, R63): what the two read operations answer. A word of the state blob is an OR
of placed fields, and each row of the map is read back by the same rules: a field is found where it was placed, it shows
nothing outside its own bits, and adjacent fields are one field. -/
namespace Sys2Proof.Machine

/-! ## Placed fields -/

/-- A field is read back from the bits it was placed at. -/
@[simp] theorem extractLsb'_fieldAt_same {lo n : Nat} (v : BitVec n) (h : lo + n ≤ 32) :
    (fieldAt lo v).extractLsb' lo n = v := by
  apply BitVec.eq_of_getLsbD_eq
  intro i hi
  rw [BitVec.getLsbD_extractLsb', fieldAt_getLsbD _ _ _ _ (by omega)]
  simp [hi]

/-- Bit `i` of the word is no bit of a field that lies above or below it. -/
theorem fieldAt_getLsbD_disjoint {lo n : Nat} (v : BitVec n) {i : Nat} (hi : i < 32) (h : i < lo ∨ lo + n ≤ i) :
    (fieldAt lo v).getLsbD i = false := by
  rw [fieldAt_getLsbD _ _ _ _ hi]
  rcases h with h | h
  · simp [h]
  · simp [BitVec.getLsbD_of_ge v (i - lo) (by omega)]

/-- A field shows nothing in a range above or below its own bits. -/
@[simp] theorem extractLsb'_fieldAt_disjoint {lo n : Nat} (v : BitVec n) {start len : Nat} (h32 : start + len ≤ 32)
    (h : start + len ≤ lo ∨ lo + n ≤ start) : (fieldAt lo v).extractLsb' start len = 0#len := by
  apply BitVec.eq_of_getLsbD_eq
  intro i hi
  rw [BitVec.getLsbD_extractLsb', fieldAt_getLsbD_disjoint v (by omega) (by omega)]
  simp

/-- A field shows nothing at a bit above or below its own. -/
@[simp] theorem fieldAt_getElem_disjoint {lo n : Nat} (v : BitVec n) {i : Nat} (hi : i < 32)
    (h : i < lo ∨ lo + n ≤ i) : (fieldAt lo v)[i] = false :=
  (BitVec.getLsbD_eq_getElem hi).symm.trans (fieldAt_getLsbD_disjoint v hi h)

/-- A flag is read back from the bit it was placed at. -/
@[simp] theorem fieldAt_ofBool_getElem {i : Nat} (b : Bool) (hi : i < 32) : (fieldAt i (BitVec.ofBool b))[i] = b := by
  rw [← BitVec.getLsbD_eq_getElem, fieldAt_getLsbD _ _ _ _ hi]
  simp

/-- A mask that misses the bits of a field clears it: whether it does is a question about the field of ones. -/
theorem fieldAt_and_eq_zero {lo n : Nat} (v : BitVec n) {m : Word} (h : fieldAt lo (BitVec.allOnes n) &&& m = 0#32) :
    fieldAt lo v &&& m = 0#32 := by
  have hones : fieldAt lo v = fieldAt lo v &&& fieldAt lo (BitVec.allOnes n) := by
    unfold fieldAt
    rw [← BitVec.shiftLeft_and_distrib, ← BitVec.setWidth_and, BitVec.and_allOnes]
  rw [hones, BitVec.and_assoc, h, BitVec.and_zero]

theorem fieldAt_lowest {n : Nat} (v : BitVec n) : fieldAt 0 v = v.setWidth 32 := BitVec.shiftLeft_zero _

theorem fieldAt_whole (w : Word) : fieldAt 0 w = w := (fieldAt_lowest w).trans (BitVec.setWidth_eq w)

theorem fieldAt_of_zero (lo n : Nat) : fieldAt lo 0#n = 0#32 := by simp [fieldAt]

/-- Adjacent fields are one field, the higher one in front. -/
theorem fieldAt_append (lo : Nat) {n m : Nat} (x : BitVec n) (y : BitVec m) :
    fieldAt lo (x ++ y) = fieldAt (lo + m) x ||| fieldAt lo y := by
  apply BitVec.eq_of_getLsbD_eq
  intro i hi
  simp only [BitVec.getLsbD_or, fieldAt_getLsbD _ _ _ _ hi, BitVec.getLsbD_append]
  by_cases hlo : lo ≤ i
  · by_cases hy : i - lo < m
    · simp [hlo, hy, show ¬ lo + m ≤ i by omega]
    · simp [hlo, hy, show lo + m ≤ i by omega, Nat.sub_sub, BitVec.getLsbD_of_ge y (i - lo) (by omega)]
  · simp [hlo, show ¬ lo + m ≤ i by omega]

/-! ## LE.READ_TELEM -/

/-- Byte `j` of the response word that packs bytes `4k` to `4k + 3` of a buffer. -/
theorem be32Byte_wordOfBytes (f : Frame) {k j : Nat} (hk : k < 4) (hj : j < 4) :
    be32Byte (wordOfBytes f[4 * k] f[4 * k + 1] f[4 * k + 2] f[4 * k + 3]) j = f[4 * k + j] := by
  unfold be32Byte wordOfBytes
  match j, hj with
  | 0, _ =>
    rw [BitVec.extractLsb'_append_eq_of_le (by omega), BitVec.extractLsb'_append_eq_of_le (by omega)]
    exact BitVec.extractLsb'_append_eq_left
  | 1, _ =>
    rw [BitVec.extractLsb'_append_eq_of_le (by omega), BitVec.extractLsb'_append_eq_of_le (by omega)]
    exact BitVec.extractLsb'_append_eq_right
  | 2, _ =>
    rw [BitVec.extractLsb'_append_eq_of_le (by omega)]
    exact BitVec.extractLsb'_append_eq_right
  | 3, _ => exact BitVec.extractLsb'_append_eq_right

theorem frameWords_getElem? (f : Frame) {k : Nat} (hk : k < 4) :
    (frameWords f)[k]? = some (wordOfBytes f[4 * k] f[4 * k + 1] f[4 * k + 2] f[4 * k + 3]) := by
  match k, hk with
  | 0, _ => rfl
  | 1, _ => rfl
  | 2, _ => rfl
  | 3, _ => rfl

theorem telemValid_decodeSel (le : LinkEngine) (sel : BitVec 1) :
    le.telemValid (decodeSel sel) = if sel = 0#1 then le.telemValidA else le.telemValidB := by
  unfold decodeSel
  split <;> rfl

theorem telem_decodeSel (le : LinkEngine) (sel : BitVec 1) :
    le.telem (decodeSel sel) = if sel = 0#1 then le.telemA else le.telemB := by
  unfold decodeSel
  split <;> rfl

theorem exec_leReadTelem (s : State) (sel : TelemBuf) :
    exec (.leReadTelem sel) s = .next { s with log := s.log ++ [.response .ok
      ((if s.le.telemValid sel = true then 1#32 else 0#32) :: frameWords (s.le.telem sel))] } := by
  rw [← bitAt_zero_eq]
  rfl

/-- Settles O22: the four words are `frameWords` of the selected buffer, read back byte by byte. -/
theorem readTelemAnswersTheBuffer : Obligations.ReadTelemAnswersTheBuffer := by
  intro s sel
  refine ⟨s.le.telem (decodeSel sel), frameWords (s.le.telem (decodeSel sel)), ?_, telem_decodeSel s.le sel, rfl, ?_⟩
  · rw [exec_leReadTelem, telemValid_decodeSel]
  · intro k j hk hj
    rw [frameWords_getElem? _ hk, Option.map_some]
    exact congrArg some (be32Byte_wordOfBytes _ hk hj)

/-! ## LE.READ_STATE: the packed words of the map (20_memory.md R61) -/

theorem sequencerWord_unused (s : State) : sequencerWord s &&& 0xF8F8CE0C#32 = 0#32 := by
  simp (disch := decide) only [sequencerWord, bitAt, BitVec.and_or_distrib_right, fieldAt_and_eq_zero, BitVec.or_zero]

theorem sequencerWord_fields (s : State) :
    (sequencerWord s).extractLsb' 0 2 = s.le.phase.code ∧ (sequencerWord s).extractLsb' 4 4 = s.le.step ∧
    (sequencerWord s)[8] = s.le.awaitingWrite ∧ (sequencerWord s).extractLsb' 12 2 = s.le.tphase.code ∧
    (sequencerWord s).extractLsb' 16 3 = s.le.pollCount ∧ (sequencerWord s)[24] = s.le.deadlineActive ∧
    (sequencerWord s)[25] = s.cfg.forceBind ∧ (sequencerWord s)[26] = s.cfg.extEnable ∧
    sequencerWord s &&& 0xF8F8CE0C#32 = 0#32 := by
  refine ⟨?_, ?_, ?_, ?_, ?_, ?_, ?_, ?_, sequencerWord_unused s⟩ <;> simp [sequencerWord, bitAt, BitVec.extractLsb'_or]

/-- The four axes fill word 5. -/
theorem axesWord_eq (c : CommandSet) : axesWord c = c.roll ++ c.pitch ++ c.yaw ++ c.thr := by
  rw [← fieldAt_whole (c.roll ++ c.pitch ++ c.yaw ++ c.thr), fieldAt_append, fieldAt_append, fieldAt_append]
  unfold axesWord
  rw [BitVec.or_comm (fieldAt 0 c.thr), BitVec.or_comm _ (fieldAt 16 c.pitch), BitVec.or_comm _ (fieldAt 24 c.roll),
    ← BitVec.or_assoc, ← BitVec.or_assoc]

theorem togglesWord_unused (c : CommandSet) : togglesWord c &&& 0xFFFFFFF8#32 = 0#32 := by
  simp (disch := decide) only [togglesWord, bitAt, BitVec.and_or_distrib_right, fieldAt_and_eq_zero, BitVec.or_zero]

theorem togglesWord_fields (c : CommandSet) :
    (togglesWord c)[0] = c.flip ∧ (togglesWord c)[1] = c.light ∧ (togglesWord c)[2] = c.video ∧
    togglesWord c &&& 0xFFFFFFF8#32 = 0#32 := by
  refine ⟨?_, ?_, ?_, togglesWord_unused c⟩ <;> simp [togglesWord, bitAt]

/-- Word 7, with its eight unused bits between the two registers. -/
theorem radioWord_eq (c : ConfigRegs) : radioWord c = c.vtxFreq ++ 0#8 ++ c.txPower := by
  rw [← fieldAt_whole (c.vtxFreq ++ 0#8 ++ c.txPower), fieldAt_append, fieldAt_append, fieldAt_of_zero, BitVec.or_zero]
  exact BitVec.or_comm ..

theorem decoderWord_unused (pd : PulseDecoder) : decoderWord pd &&& 0xFFC000FC#32 = 0#32 := by
  simp (disch := decide) only [decoderWord, bitAt, BitVec.and_or_distrib_right, fieldAt_and_eq_zero, BitVec.or_zero]

theorem decoderWord_fields (pd : PulseDecoder) :
    (decoderWord pd)[0] = pd.enabled ∧ (decoderWord pd).extractLsb' 1 1 = pd.line ∧
    (decoderWord pd).extractLsb' 8 8 = pd.polarity.code ∧ (decoderWord pd).extractLsb' 16 4 = pd.index ∧
    (decoderWord pd)[20] = pd.frameValid ∧ (decoderWord pd)[21] = pd.fresh ∧
    decoderWord pd &&& 0xFFC000FC#32 = 0#32 := by
  refine ⟨?_, ?_, ?_, ?_, ?_, ?_, decoderWord_unused pd⟩ <;> simp [decoderWord, bitAt, BitVec.extractLsb'_or]

theorem telemValidWord_unused (le : LinkEngine) : telemValidWord le &&& 0xFFFFFFFC#32 = 0#32 := by
  simp (disch := decide) only [telemValidWord, bitAt, BitVec.and_or_distrib_right, fieldAt_and_eq_zero, BitVec.or_zero]

theorem telemValidWord_fields (le : LinkEngine) :
    (telemValidWord le)[0] = le.telemValidA ∧ (telemValidWord le)[1] = le.telemValidB ∧
    telemValidWord le &&& 0xFFFFFFFC#32 = 0#32 := by
  refine ⟨?_, ?_, telemValidWord_unused le⟩ <;> simp [telemValidWord, bitAt]

/-! ## LE.READ_STATE: the places in the blob -/

theorem stateWords_length (s : State) : (stateWords s).length = 27 := by simp [stateWords]

theorem stateWords_raw (s : State) {k : Nat} (hk : k < 8) :
    (stateWords s)[10 + k]? = some (s.pd.raw[k].setWidth 32) := by
  rw [Nat.add_comm]
  simp [stateWords, List.getElem?_append, hk]

theorem stateWords_published (s : State) {k : Nat} (hk : k < 8) :
    (stateWords s)[18 + k]? = some (s.pd.published[k].setWidth 32) := by
  rw [Nat.add_comm]
  simp [stateWords, List.getElem?_append, hk]

theorem stateWords_telemValid (s : State) : (stateWords s)[26]? = some (telemValidWord s.le) := by
  simp [stateWords]

theorem exec_leReadState (s : State) :
    exec .leReadState s = .next { s with log := s.log ++ [.response .ok (stateWords s)] } := rfl

/-- Settles O23: the words of the blob by their places, and the packed ones read back field by field. -/
theorem readStateAnswersEveryElement : Obligations.ReadStateAnswersEveryElement := by
  intro s
  exact ⟨exec_leReadState s, stateWords_length s,
    ⟨_, rfl, sequencerWord_fields s⟩,
    rfl,
    congrArg some (fieldAt_lowest s.le.channel),
    rfl,
    rfl,
    congrArg some (axesWord_eq s.le.cmd),
    ⟨_, rfl, togglesWord_fields s.le.cmd⟩,
    congrArg some (radioWord_eq s.cfg),
    ⟨_, rfl, decoderWord_fields s.pd⟩,
    rfl,
    fun _ hk => ⟨stateWords_raw s hk, stateWords_published s hk⟩,
    ⟨_, stateWords_telemValid s, telemValidWord_fields s.le⟩⟩

end Sys2Proof.Machine
end

section
/-! PROOF of O2, O5, O6, O7 (30_encoding.md R82 to R92, R98) and O21 (41_link_control.md R161, R162). The encoder's side
reads each format's word as an OR of placed fields; the decoder's side turns on which fields a row of the opcode table
reads: a mask that keeps those fields keeps the decoding, and the step of an event depends on its word only through what
it decodes to. -/
namespace Sys2Proof.Machine

/-! ## The encoder: a format's word by its fields -/

theorem code_decodeLine (c : Byte) : (decodeLine c).code = c := by
  unfold decodeLine
  split_ifs with h0 h1
  · exact h0.symm
  · exact h1.symm
  · rfl

theorem code_decodePol (c : Byte) : (decodePol c).code = c := by
  unfold decodePol
  split_ifs with h1 h2
  · exact h1.symm
  · exact h2.symm
  · rfl

theorem code_decodeSel (c : BitVec 1) : (decodeSel c).code = c := by
  unfold decodeSel
  split_ifs with h0
  · exact h0.symm
  · exact ((BitVec.eq_zero_or_eq_one c).resolve_left h0).symm

theorem formatS_eq_or (op line pol : Byte) :
    formatS op line pol = fieldAt 24 op ||| line.setWidth 32 <<< 8 ||| pol.setWidth 32 := by
  rw [← fieldAt_whole (formatS op line pol), formatS, fieldAt_append, fieldAt_append, fieldAt_append, fieldAt_of_zero,
    BitVec.or_zero, fieldAt_lowest pol]
  rfl

theorem formatK_eq_or (op id : Byte) (value : Half) :
    formatK op id value = fieldAt 16 (op ++ id) ||| value.setWidth 32 := by
  rw [← fieldAt_whole (formatK op id value), formatK, fieldAt_append, fieldAt_lowest value]

theorem formatT_eq_or (op : Byte) (sel : BitVec 1) : formatT op sel = fieldAt 24 op ||| sel.setWidth 32 := by
  rw [← fieldAt_whole (formatT op sel), formatT, fieldAt_append, fieldAt_append, fieldAt_of_zero, BitVec.or_zero,
    fieldAt_lowest sel]

/-- Settles O2: formats S, E, K and T by their placed fields, format N by its constant word. -/
theorem encodedWordsOfEveryForm : Obligations.EncodedWordsOfEveryForm := by
  refine ⟨fun l p => ?_, rfl, fun l p => ?_, rfl, rfl, fun sel => ?_, rfl, fun v => ?_⟩
  · rw [encode, code_decodeLine, code_decodePol]
    exact formatS_eq_or 0x01#8 l p
  · rw [encode, code_decodeLine, code_decodePol]
    exact formatS_eq_or 0x03#8 l p
  · rw [encode, code_decodeSel]
    exact formatT_eq_or 0x14#8 sel
  · exact ⟨formatK_eq_or 0x11#8 0x00#8 v, formatK_eq_or 0x11#8 0x01#8 v, formatK_eq_or 0x11#8 0x02#8 v,
      formatK_eq_or 0x11#8 0x03#8 v, formatK_eq_or 0x11#8 0x04#8 v, formatK_eq_or 0x11#8 0x05#8 v,
      formatK_eq_or 0x11#8 0x06#8 v, formatK_eq_or 0x13#8 0x00#8 v, formatK_eq_or 0x13#8 0x01#8 v,
      formatK_eq_or 0x13#8 0x02#8 v, formatK_eq_or 0x13#8 0x03#8 v⟩

/-! ## Reserved bits (30_encoding.md R88) -/

/-- A mask that is all ones over a field keeps the field. -/
theorem extractLsb'_and_of_allOnes {w m : Word} {start len : Nat}
    (h : m.extractLsb' start len = BitVec.allOnes len) : (w &&& m).extractLsb' start len = w.extractLsb' start len := by
  rw [BitVec.extractLsb'_and, h, BitVec.and_allOnes]

/-- No format reserves a bit of the opcode. -/
theorem opcodeField_and_usedBits (w : Word) (op : Byte) : opcodeField (w &&& usedBits op) = opcodeField w := by
  apply extractLsb'_and_of_allOnes
  unfold usedBits
  split_ifs <;> rfl

theorem lineField_and_usedBits {w : Word} {op : Byte} (h : op = 0x01#8 ∨ op = 0x03#8) :
    lineField (w &&& usedBits op) = lineField w := by
  apply extractLsb'_and_of_allOnes
  rw [usedBits, if_pos h]
  rfl

theorem polField_and_usedBits {w : Word} {op : Byte} (h : op = 0x01#8 ∨ op = 0x03#8) :
    polField (w &&& usedBits op) = polField w := by
  apply extractLsb'_and_of_allOnes
  rw [usedBits, if_pos h]
  rfl

/-- Format K reserves nothing. -/
theorem and_usedBits_of_formatK {w : Word} {op : Byte} (h : op = 0x11#8 ∨ op = 0x13#8) : w &&& usedBits op = w := by
  have hm : usedBits op = BitVec.allOnes 32 := by rcases h with rfl | rfl <;> rfl
  rw [hm, BitVec.and_allOnes]

theorem selField_and_usedBits {w : Word} : selField (w &&& usedBits 0x14#8) = selField w :=
  extractLsb'_and_of_allOnes rfl

/-- Each row reads the opcode and the operand fields of its own format, and `usedBits` keeps those. -/
theorem decode_and_usedBits (p : Port) (w : Word) : decode p (w &&& usedBits (opcodeField w)) = decode p w := by
  cases p with
  | cmd =>
    simp only [decode, decodeCmd, opcodeField_and_usedBits]
    split_ifs with h01 h02 h10 h11 h12 h13 h14 h15
    · rw [lineField_and_usedBits (.inl h01), polField_and_usedBits (.inl h01)]
    · rfl
    · rfl
    · rw [and_usedBits_of_formatK (.inl h11)]
    · rfl
    · rw [and_usedBits_of_formatK (.inr h13)]
    · rw [h14, selField_and_usedBits]
    · rfl
    · rfl
  | edge =>
    simp only [decode, decodeEdge, opcodeField_and_usedBits]
    split_ifs with h03
    · rw [lineField_and_usedBits (.inr h03), polField_and_usedBits (.inr h03)]
    · rfl

/-- A command's word takes part in its step only through what it decodes to. -/
theorem step_cmd_congr {w w' : Word} (h : decode .cmd w = decode .cmd w') (s : State) (us ms : Word) (d : Draws)
    (es : List Event) :
    step { s with events := .cmd w us ms d :: es } = step { s with events := .cmd w' us ms d :: es } := by
  simp only [step, fetch, fetchEvent, h]

/-- So does an edge's word. -/
theorem step_edge_congr {w w' : Word} (h : decode .edge w = decode .edge w') (s : State) (us : Word)
    (es : List Event) :
    step { s with events := .edge w us :: es } = step { s with events := .edge w' us :: es } := by
  simp only [step, fetch, fetchEvent, h]

/-- Settles O5: the decoding is the same, and with it the step. -/
theorem reservedBitsChangeNothing : Obligations.ReservedBitsChangeNothing :=
  ⟨decode_and_usedBits, fun s w us ms d es =>
    ⟨step_cmd_congr (decode_and_usedBits .cmd w).symm s us ms d es,
      step_edge_congr (decode_and_usedBits .edge w).symm s us es⟩⟩

/-! ## The decoder by opcode alone (30_encoding.md R90, R92) -/

/-- The opcodes of the CMD port's rows (30_encoding.md R83). -/
def commandOpcodes : List Byte := [0x01#8, 0x02#8, 0x10#8, 0x11#8, 0x12#8, 0x13#8, 0x14#8, 0x15#8]

/-- Every word whose opcode has a row decodes to that row. -/
theorem decode_cmd_of_mem {w : Word} (h : opcodeField w ∈ commandOpcodes) :
    ∃ i : Instr, decode .cmd w = .instr i ∧ i.opcode = opcodeField w := by
  simp only [decode, decodeCmd]
  split_ifs with h01 h02 h10 h11 h12 h13 h14 h15
  · exact ⟨_, rfl, h01.symm⟩
  · exact ⟨_, rfl, h02.symm⟩
  · exact ⟨_, rfl, h10.symm⟩
  · exact ⟨_, rfl, h11.symm⟩
  · exact ⟨_, rfl, h12.symm⟩
  · exact ⟨_, rfl, h13.symm⟩
  · exact ⟨_, rfl, h14.symm⟩
  · exact ⟨_, rfl, h15.symm⟩
  · simp [commandOpcodes, *] at h

theorem decode_cmd_of_not_mem {w : Word} (h : opcodeField w ∉ commandOpcodes) :
    decode .cmd w = .illegal (opcodeField w) := by
  simp only [commandOpcodes, List.mem_cons, List.not_mem_nil, or_false, not_or] at h
  obtain ⟨h01, h02, h10, h11, h12, h13, h14, h15⟩ := h
  simp only [decode, decodeCmd, h01, h02, h10, h11, h12, h13, h14, h15, if_false]

theorem decode_edge_of_pdEdge {w : Word} (h : opcodeField w = 0x03#8) :
    decode .edge w = .instr (.pdEdge (decodeLine (lineField w)) (decodePol (polField w))) := if_pos h

theorem decode_edge_of_ne {w : Word} (h : opcodeField w ≠ 0x03#8) : decode .edge w = .discarded (opcodeField w) :=
  if_neg h

/-- Settles O6: the rows by the CMD port's opcodes, PD.EDGE by its own, and a discarded word's step. -/
theorem decoderIsTotalByOpcode : Obligations.DecoderIsTotalByOpcode := by
  refine ⟨fun w => ?_, fun w => ?_, fun s w us es h => ?_⟩
  · split_ifs with h
    · exact decode_cmd_of_mem h
    · exact decode_cmd_of_not_mem h
  · split_ifs with h
    · exact ⟨_, _, decode_edge_of_pdEdge h⟩
    · exact decode_edge_of_ne h
  · exact step_discarded (s := { s with events := .edge w us :: es }) rfl (decode_edge_of_ne h)

/-- The reserved ranges of 30_encoding.md R92 hold no opcode of a CMD row. -/
theorem commandOpcodes_not_reserved : ∀ op ∈ commandOpcodes,
    ¬ (op.toNat = 0x00 ∨ (0x03 ≤ op.toNat ∧ op.toNat ≤ 0x0F) ∨ 0x16 ≤ op.toNat) := by decide

/-- Settles O7: a reserved opcode has no row, so its word is answered ILLEGAL. -/
theorem reservedOpcodeAnswersIllegal : Obligations.ReservedOpcodeAnswersIllegal := by
  intro s w us ms d es h
  have hd : decode .cmd w = .illegal (opcodeField w) :=
    decode_cmd_of_not_mem fun hm => commandOpcodes_not_reserved _ hm h
  exact step_illegal (s := { s with events := .cmd w us ms d :: es }) rfl hd

/-! ## LE.SET_CONFIG (41_link_control.md R161) -/

theorem decide_ne_zero_eq (v : Half) : decide (v ≠ 0#16) = decide (v.toNat ≠ 0) :=
  decide_eq_decide.mpr BitVec.toNat_ne

theorem write_forceBind (c : ConfigRegs) (v : Half) :
    c.write .forceBind v = some { c with forceBind := decide (v.toNat ≠ 0) } := by
  rw [← decide_ne_zero_eq]
  rfl

theorem write_extEnable (c : ConfigRegs) (v : Half) :
    c.write .extEnable v = some { c with extEnable := decide (v.toNat ≠ 0) } := by
  rw [← decide_ne_zero_eq]
  rfl

theorem write_txPower (c : ConfigRegs) (v : Half) :
    c.write .txPower v = some { c with txPower := BitVec.ofNat 8 (v.toNat % 256) } := by
  have hlow : v.extractLsb' 0 8 = BitVec.ofNat 8 (v.toNat % 256) := BitVec.eq_of_toNat_eq (by simp)
  rw [← hlow]
  rfl

theorem exec_leSetConfig_of_some {s : State} {id : ConfigId} {v : Half} {c : ConfigRegs}
    (h : s.cfg.write id v = some c) :
    exec (.leSetConfig id v) s = .next { s with cfg := c, log := s.log ++ [.response .ok []] } := by
  simp only [exec, execLeSetConfig, h]
  rfl

theorem exec_leSetConfig_of_none {s : State} {id : ConfigId} {v : Half} (h : s.cfg.write id v = none) :
    exec (.leSetConfig id v) s = .next { s with log := s.log ++ [.response .badField []] } := by
  simp only [exec, execLeSetConfig, h]
  rfl

/-- Settles O21: the field byte selects the register write, or none. -/
theorem setConfigWritesOneRegister : Obligations.SetConfigWritesOneRegister := by
  intro s id v answer
  unfold decodeConfigId
  split_ifs with h0 h1 h2 h3
  · exact exec_leSetConfig_of_some (write_forceBind s.cfg v)
  · exact exec_leSetConfig_of_some (write_extEnable s.cfg v)
  · exact exec_leSetConfig_of_some (write_txPower s.cfg v)
  · exact exec_leSetConfig_of_some rfl
  · exact exec_leSetConfig_of_none rfl

end Sys2Proof.Machine
end

section
/-! PROOF of O13 (40_pulse_decoder.md R120 to R127). The operand bytes reach the handler only through the qualification
test, and the clock only through the width; each is said on natural numbers, and the handler's rule is then one case per
kind of edge. -/
namespace Sys2Proof.Machine

/-! ## Qualification by the operand bytes (40_pulse_decoder.md R120) -/

/-- A line byte names a line exactly when it is that line's number: no other byte is valid (30_encoding.md R85). -/
theorem line?_decodeLine_eq_some_iff (c : Byte) (line : BitVec 1) :
    (decodeLine c).line? = some line ↔ c.toNat = line.toNat := by
  have hline : line.toNat < 2 := line.isLt
  unfold decodeLine
  split_ifs with h0 h1
  · subst h0
    simp only [LineField.line?, Option.some.injEq, ← BitVec.toNat_inj]
    rfl
  · subst h1
    simp only [LineField.line?, Option.some.injEq, ← BitVec.toNat_inj]
    rfl
  · simp only [LineField.line?, reduceCtorEq, false_iff]
    bv_omega

/-- A polarity byte names a polarity exactly when it is that polarity's code (30_encoding.md R84). -/
theorem polarity?_decodePol_eq_some_iff (c : Byte) (polarity : Polarity) :
    (decodePol c).polarity? = some polarity ↔ c = polarity.code := by
  unfold decodePol
  split_ifs with h1 h2
  · subst h1
    cases polarity <;> decide
  · subst h2
    cases polarity <;> decide
  · cases polarity <;> simp [PolField.polarity?, Polarity.code, h1, h2]

theorem qualifies_decode_iff (pd : PulseDecoder) (l p : Byte) :
    pd.qualifies (decodeLine l) (decodePol p) = true ↔
      pd.enabled = true ∧ l.toNat = pd.line.toNat ∧ p = pd.polarity.code := by
  rw [PulseDecoder.qualifies, Bool.and_eq_true, Bool.and_eq_true, decide_eq_true_iff, decide_eq_true_iff,
    line?_decodeLine_eq_some_iff, polarity?_decodePol_eq_some_iff, and_assoc]

/-! ## The width (40_pulse_decoder.md R123) -/

/-- The width of a wrapping clock: the difference of the two times modulo 2^32. -/
theorem toNat_sub_eq_mod (now last : Word) : (now - last).toNat = (now.toNat + 2 ^ 32 - last.toNat) % 2 ^ 32 := by
  bv_omega

theorem extractLsb'_zero_eq_ofNat (w : Word) : w.extractLsb' 0 16 = BitVec.ofNat 16 w.toNat :=
  BitVec.eq_of_toNat_eq (by simp)

/-! ## The handler -/

/-- Settles O13, by the qualification and then the kind of edge: a sync, a pulse stored, a pulse rejected, or a pulse
after the last slot. -/
theorem edgeHandlerFollowsItsRule : Obligations.EdgeHandlerFollowsItsRule := by
  intro s l p
  simp only [exec, execPdEdge_eq, qualifies_decode_iff, ← toNat_sub_eq_mod, ← extractLsb'_zero_eq_ofNat,
    ← isSyncWidth_iff, ← pulseInRange_iff]
  by_cases hq : s.pd.enabled = true ∧ l.toNat = s.pd.line.toNat ∧ p = s.pd.polarity.code
  · rw [if_pos hq, if_pos hq]
    rcases onEdge_cases s.inputs.nowUs s.pd with
      ⟨hsync, e⟩ | ⟨hsync, hslot, hrange, e⟩ | ⟨hsync, hslot, hrange, e⟩ | ⟨hsync, hfull, e⟩
    · rw [e, if_pos hsync]
    · rw [e, if_neg (by simp [hsync]), dif_pos hslot, if_pos hrange]
    · rw [e, if_neg (by simp [hsync]), dif_pos hslot, if_neg (by simp [hrange])]
    · rw [e, if_neg (by simp [hsync]), dif_neg (Nat.not_lt.mpr hfull)]
  · rw [if_neg hq, if_neg hq]

end Sys2Proof.Machine
end

section
/-! PROOF of O17, O18, O19 (41_link_control.md R151 to R160) and O24 (R166). The link's control operations: a bind attempt
turns on the driver's Init answer alone, a command on what `CommandSet.ingest` makes of it, and the rescale is a fraction
of the span from `lo` to `hi`, scaled to 255. -/
namespace Sys2Proof.Machine

/-! ## LE.BEGIN_BIND (41_link_control.md R151, R155) -/

theorem exec_leBeginBind (s : State) : exec .leBeginBind s = .next (s.beginBind Config.params []) := rfl

/-- Settles O17, by the answer of the driver's Init. -/
theorem beginBindStartsOrAborts : Obligations.BeginBindStartsOrAborts := by
  intro s
  rw [exec_leBeginBind]
  split_ifs with hinit
  · rw [beginBind_of_initOk hinit, LinkEngine.startAttempt]
  · rw [beginBind_of_initFail (Bool.eq_false_of_not_eq_true hinit), LinkEngine.abortAttempt]

/-! ## LE.SET_COMMAND (41_link_control.md R156 to R160) -/

theorem exec_leSetCommand_of_some {s : State} {id : CommandId} {v : Half} {c : CommandSet}
    (h : s.le.cmd.ingest Config.params id v = some c) :
    exec (.leSetCommand id v) s =
      .next { s with le := { s.le with cmd := c }, log := s.log ++ [.response .ok []] } := by
  simp only [exec, execLeSetCommand, State.setCommand, h]
  rfl

theorem exec_leSetCommand_of_none {s : State} {id : CommandId} {v : Half}
    (h : s.le.cmd.ingest Config.params id v = none) :
    exec (.leSetCommand id v) s = .next { s with log := s.log ++ [.response .badCommand []] } := by
  simp only [exec, execLeSetCommand, State.setCommand, h]
  rfl

/-- Settles O18: the identifier byte selects the field of the CommandSet, or none. -/
theorem setCommandIngestsOneField : Obligations.SetCommandIngestsOneField := by
  intro s id v axis toggle answer
  have haxis (lo : Nat) : axis lo = scaleByte v lo := (scaleByte_eq v lo).symm
  have htoggle : toggle = toggleBit v := (toggleBit_eq v).symm
  rw [haxis, haxis, htoggle]
  unfold decodeCommandId
  split_ifs with hthr hyaw hpitch hroll hflip hlight hvideo
  · exact exec_leSetCommand_of_some rfl
  · exact exec_leSetCommand_of_some rfl
  · exact exec_leSetCommand_of_some rfl
  · exact exec_leSetCommand_of_some rfl
  · exact exec_leSetCommand_of_some rfl
  · exact exec_leSetCommand_of_some rfl
  · exact exec_leSetCommand_of_some rfl
  · exact exec_leSetCommand_of_none rfl

/-! ## The rescale (41_link_control.md R157) -/

/-- The clamped input lies at most the whole span above `lo`, so its share of 255 is at most 255. -/
theorem scale_le (v lo hi : Nat) : scale v lo hi ≤ 255 := by
  have hspan : min (max v lo) hi - lo ≤ hi - lo := Nat.sub_le_sub_right (min_le_right _ _) lo
  exact Nat.div_le_of_le_mul (Nat.mul_le_mul_right 255 hspan)

theorem scale_mono {v w : Nat} (lo hi : Nat) (h : v ≤ w) : scale v lo hi ≤ scale w lo hi := by
  have hclamp : min (max v lo) hi ≤ min (max w lo) hi := min_le_min_right hi (max_le_max_right lo h)
  exact Nat.div_le_div_right (Nat.mul_le_mul_right 255 (Nat.sub_le_sub_right hclamp lo))

theorem scale_of_le_lo {v lo hi : Nat} (h : v ≤ lo) (hlt : lo < hi) : scale v lo hi = 0 := by
  rw [scale, max_eq_right h, min_eq_left hlt.le, Nat.sub_self, Nat.zero_mul, Nat.zero_div]

theorem scale_of_hi_le {v lo hi : Nat} (h : hi ≤ v) (hlt : lo < hi) : scale v lo hi = 255 := by
  rw [scale, min_eq_right (h.trans (le_max_left v lo)), Nat.mul_div_cancel_left 255 (Nat.sub_pos_of_lt hlt)]

/-- Settles O19: the range, the order and the two clamps, and the listed values by evaluation. -/
theorem rescaleIsMonotoneWithinAByte : Obligations.RescaleIsMonotoneWithinAByte :=
  ⟨fun _ _ _ => rfl, scale_le, fun _ _ lo hi => scale_mono lo hi, fun _ _ _ => scale_of_le_lo,
    fun _ _ _ => scale_of_hi_le, by decide⟩

/-! ## LE.ADVANCE in Idle (41_link_control.md R166) -/

theorem advance_of_idle {P : Params} {s : State} (hp : s.le.phase = .idle) :
    advance P s = .next (s.respond .idle [tIdle]) := by
  simp only [advance, hp]

/-- Settles O24: in Idle the dispatch only answers. -/
theorem advanceInIdleAnswersIdle : Obligations.AdvanceInIdleAnswersIdle := fun _ hp => advance_of_idle hp

end Sys2Proof.Machine
end

section
/-! PROOF of O27 (42_link_binding.md R184, R185) and O28 (R186 to R188). With no rebind the case table of R180 sends the
even steps of the handshake to BIND-READ and BIND-RESOLVE; what these do is then split as their rules split it, on the
driver's busy answer, the sentinel and `cfg.forceBind`. -/
namespace Sys2Proof.Machine

/-! ## The even steps of the case table (42_link_binding.md R180) -/

theorem bindBranch_of_readStep {step : BitVec 4} (h : step = 2#4 ∨ step = 4#4 ∨ step = 6#4) :
    bindBranch step false = some .read := by
  rcases h with rfl | rfl | rfl <;> rfl

theorem exec_leAdvance_of_readStep {s : State} (hp : s.le.phase = .binding) (haw : s.le.awaitingWrite = false)
    (hstep : s.le.step = 2#4 ∨ s.le.step = 4#4 ∨ s.le.step = 6#4) (hd : NoRebind s) :
    exec .leAdvance s = .next (bindRead Config.params s) :=
  advance_of_branch hp hd (b := .read) (haw ▸ bindBranch_of_readStep hstep)

theorem exec_leAdvance_of_resolveStep {s : State} (hp : s.le.phase = .binding) (haw : s.le.awaitingWrite = false)
    (hstep : s.le.step = 8#4) (hd : NoRebind s) :
    exec .leAdvance s = .next (bindResolve Config.params s) :=
  advance_of_branch hp hd (b := .resolve) (by rw [haw, hstep]; rfl)

/-! ## The obligations -/

/-- Settles O27, by the driver's busy answer. -/
theorem bindReadRestartsOrAdvances : Obligations.BindReadRestartsOrAdvances := by
  intro s hp haw hstep hd
  rw [exec_leAdvance_of_readStep hp haw hstep hd]
  by_cases hbusy : s.inputs.draws.busy = true
  · rw [if_pos hbusy, bindRead_of_busy hbusy]
  · rw [if_neg hbusy, bindRead_of_ready (Bool.eq_false_of_not_eq_true hbusy), linkAddress, wordOfBytes]

/-- Settles O28: a forced bind links whatever the driver answers; otherwise a busy driver and a frame without the
sentinel fall back, and only the latter is read. -/
theorem bindResolveLinksOrFallsBack : Obligations.BindResolveLinksOrFallsBack := by
  intro s hp haw hstep hd
  rw [exec_leAdvance_of_resolveStep hp haw hstep hd]
  split_ifs with hfail hlink
  · obtain ⟨hbusy, hforce⟩ := hfail
    rw [bindResolve_of_busy hbusy hforce, LinkEngine.fallBack]
  · have hcause : s.cfg.forceBind = true ∨ (s.inputs.draws.busy = false ∧ s.inputs.draws.rx[1] = Config.sentinel) := by
      cases hforce : s.cfg.forceBind with
      | true => exact .inl rfl
      | false => exact .inr ⟨by simpa [hforce] using hfail, hlink.resolve_right (by simp [hforce])⟩
    rw [bindResolve_of_link hcause, LinkEngine.enterLinked]
  · obtain ⟨hsentinel, hforce⟩ := not_or.mp hlink
    have hforce : s.cfg.forceBind = false := Bool.eq_false_of_not_eq_true hforce
    have hready : s.inputs.draws.busy = false := Bool.eq_false_of_not_eq_true fun hbusy => hfail ⟨hbusy, hforce⟩
    rw [bindResolve_of_retry hready hforce hsentinel, LinkEngine.fallBack]

end Sys2Proof.Machine
end

section
/-! PROOF of O31 (43_link_linked.md R201 to R204). Linked and Transmit select LINK-TRANSMIT, whose equation already gives
the transactions in order; what remains is that the capped ordinal is the frame count, counted up to saturation. -/
namespace Sys2Proof.Machine

theorem exec_leAdvance_of_transmit {s : State} (hp : s.le.phase = .linked) (ht : s.le.tphase = .transmit) :
    exec .leAdvance s = .next (linkTransmit Config.params s) :=
  advance_of_transmit hp ht

/-- The count a transmission leaves is the frame's ordinal, capped at the register's last value (43_link_linked.md R204):
a full register stays full, and any other counts by one without wrapping. -/
theorem ofNat_min_ordinal_eq (le : LinkEngine) :
    BitVec.ofNat 32 (min le.ordinal (2 ^ 32 - 1)) =
      if le.frameCount = 0xFFFFFFFF#32 then 0xFFFFFFFF#32 else le.frameCount + 1#32 := by
  unfold LinkEngine.ordinal
  split_ifs with hfull
  · rw [hfull]
    rfl
  · have hroom : le.frameCount.toNat + 1 ≤ 2 ^ 32 - 1 := by bv_omega
    rw [min_eq_left hroom, BitVec.ofNat_add, BitVec.ofNat_toNat, BitVec.setWidth_eq]

/-- Settles O31: the equation of LINK-TRANSMIT, with the saturating count read on the register. -/
theorem linkTransmitSendsOneFrame : Obligations.LinkTransmitSendsOneFrame := by
  intro s hp ht
  rw [exec_leAdvance_of_transmit hp ht, linkTransmit_eq, ofNat_min_ordinal_eq, LinkEngine.ordinal, uplinkChannel]

end Sys2Proof.Machine
end

section
/-! PROOF of O41 (44_frames.md R244), O42 (R232, R245) and O45 (R240, R242). Every frame the block builds is a framed
payload, and CKV accepts those by the way it is made from CK. A normal data frame is read back through the layout of
R235 at the default offsets and the bits of the flags byte of R236. -/
namespace Sys2Proof.Machine

/-! ## Checksum framing -/

/-- The law R232 asks of CKV: a payload framed by CK passes whatever `ckvFree` is. -/
theorem verify_framed (P : Params) (p : Payload) : P.verify (framed P p) = true := by
  unfold Params.verify
  rw [framed_pop, framed_last, decide_eq_true rfl, Bool.or_true]

/-- Settles O42: bind frames and both kinds of data frame are framed payloads. -/
theorem everyBuiltFrameValidates : Obligations.EveryBuiltFrameValidates := by
  refine ⟨fun P p => ?law, fun P tag ch sid => ?bind, fun P cmd k cfg => ?data⟩
  case law => exact verify_framed P p
  case bind => exact verify_framed P (bindPayload P tag ch sid)
  case data => exact verify_framed P _

/-! ## The telemetry decoder -/

theorem Params.tagA_ne_tagB (P : Params) : P.tagA ≠ P.tagB := by
  unfold Params.tagB
  split_ifs with hsame
  · bv_omega
  · exact Ne.symm hsame

section
variable {P : Params} {rx : Frame} (le : LinkEngine)

theorem telemetryDecode_of_tagA (hv : P.verify rx = true) (ha : rx[0] = P.tagA) :
    le.telemetryDecode P rx = { le with telemA := rx, telemValidA := true } := by
  rw [LinkEngine.telemetryDecode, if_pos hv, if_pos ha]

theorem telemetryDecode_of_tagB (hv : P.verify rx = true) (hb : rx[0] = P.tagB) :
    le.telemetryDecode P rx = { le with telemB := rx, telemValidB := true } := by
  have ha : rx[0] ≠ P.tagA := fun ha => Params.tagA_ne_tagB P (ha.symm.trans hb)
  rw [LinkEngine.telemetryDecode, if_pos hv, if_neg ha, if_pos hb]

theorem telemetryDecode_of_invalid (hv : P.verify rx = false) : le.telemetryDecode P rx = le := by
  rw [LinkEngine.telemetryDecode, if_neg (Bool.eq_false_iff.mp hv)]

theorem telemetryDecode_of_unknownTag (ha : rx[0] ≠ P.tagA) (hb : rx[0] ≠ P.tagB) : le.telemetryDecode P rx = le := by
  rw [LinkEngine.telemetryDecode, if_neg ha, if_neg hb, ite_self]

end

/-- Settles O45, by the branches of the decoder; the tags differ, so a frame of tag B is not one of tag A. -/
theorem telemetryDecoderKeepsValidKnownFrames : Obligations.TelemetryDecoderKeepsValidKnownFrames := by
  refine ⟨Params.tagA_ne_tagB, fun P rx le => telemetryDecode_of_tagA le, fun P rx le => telemetryDecode_of_tagB le,
    fun P rx le hdiscard => ?_⟩
  obtain hinvalid | ⟨ha, hb⟩ := hdiscard
  · exact telemetryDecode_of_invalid le hinvalid
  · exact telemetryDecode_of_unknownTag le ha hb

/-! ## Reading a normal data frame back -/

theorem dataFrame_getElem_of_normal (P : Params) (cmd : CommandSet) {k : Nat} {cfg : ConfigRegs} {i : Nat}
    (hnormal : ¬ (cfg.extEnable = true ∧ k = 100)) (hi : i < 15) :
    (dataFrame P cmd k cfg)[i] = dataByte P cmd k i := by
  rw [dataFrame_getElem P cmd k cfg hi, if_neg (mt (isExtended_iff cfg k).mp hnormal)]

/-- After the grace frames each toggle decides its own flag bit (44_frames.md R236). -/
theorem flagsByte_of_grace_lt (P : Params) (cmd : CommandSet) {k : Nat} (h : 100 < k) :
    flagsByte P cmd k =
      P.flagsBase ||| flagWhen cmd.light P.flagLight ||| flagWhen cmd.flip P.flagFlip |||
        flagWhen cmd.video P.flagVideo :=
  if_neg (Nat.not_le.mpr h)

/-- The default flag bits are distinct and not in the default base, so each toggle reads back. -/
theorem defaultFlags_bits (light flip video : Bool) :
    let flags := 0x02#8 ||| flagWhen light 0x04#8 ||| flagWhen flip 0x08#8 ||| flagWhen video 0x01#8
    flags[2] = light ∧ flags[3] = flip ∧ flags[0] = video := by
  revert light flip video
  decide

/-- The bytes of the CommandSet in a data frame at the default offsets (44_frames.md R235). -/
theorem defaults_dataByte (a b : Byte) (fields : TelemField → FieldPlace) (pol : DeadlinePolicy) (cmd : CommandSet)
    (k : Nat) :
    dataByte (Config.defaults a b fields pol) cmd k 2 = cmd.thr ∧
    dataByte (Config.defaults a b fields pol) cmd k 4 = 255#8 - cmd.yaw ∧
    dataByte (Config.defaults a b fields pol) cmd k 6 = 255#8 - cmd.pitch ∧
    dataByte (Config.defaults a b fields pol) cmd k 8 = cmd.roll ∧
    dataByte (Config.defaults a b fields pol) cmd k 9 = flagsByte (Config.defaults a b fields pol) cmd k := by
  simp only [dataByte, defaults_frameOffsets]
  exact ⟨rfl, rfl, rfl, rfl, rfl⟩

/-- Settles O41: the axes through the layout, with yaw and pitch inverted twice, and the toggles through the flags
byte. -/
theorem dataFrameRoundTrip : Obligations.DataFrameRoundTrip := by
  intro a b fields pol cmd k cfg hnormal f
  obtain ⟨hthr, hyaw, hpitch, hroll, hflags⟩ := defaults_dataByte a b fields pol cmd k
  have hbyte {i : Nat} (hi : i < 15) : f[i] = dataByte (Config.defaults a b fields pol) cmd k i :=
    dataFrame_getElem_of_normal _ cmd hnormal hi
  rw [hbyte (i := 2) (by decide), hbyte (i := 4) (by decide), hbyte (i := 6) (by decide), hbyte (i := 8) (by decide),
    hbyte (i := 9) (by decide), hthr, hyaw, hpitch, hroll, hflags, sub_sub_cancel, sub_sub_cancel]
  refine ⟨rfl, rfl, rfl, rfl, fun hk => ?toggles⟩
  case toggles =>
    rw [flagsByte_of_grace_lt _ cmd hk]
    obtain ⟨hlight, hflip, hvideo⟩ := defaultFlags_bits cmd.light cmd.flip cmd.video
    exact ⟨hlight.symm, hflip.symm, hvideo.symm⟩

end Sys2Proof.Machine
end

section
/-! PROOF of O10 (70_reset_and_hazards.md R290, R291). The RESET event's step is `step_reset`; what is left is that the
state it answers holds the listed values, where only the two kinds of array are not already written as numerals. -/
namespace Sys2Proof.Machine

/-- The eight channel widths after reset, as R291 lists them. -/
theorem replicate_pubInit_eq_literal :
    Vector.replicate 8 Config.pubInit =
      #v[1500#16, 1500#16, 1500#16, 1500#16, 1500#16, 1500#16, 1500#16, 1500#16] := rfl

/-- A telemetry buffer after reset, as R291 lists it. -/
theorem replicate_zero_eq_literal :
    Vector.replicate 16 0#8 =
      #v[0#8, 0#8, 0#8, 0#8, 0#8, 0#8, 0#8, 0#8, 0#8, 0#8, 0#8, 0#8, 0#8, 0#8, 0#8, 0#8] := rfl

/-- Settles O10: the RESET event is answered by `resetEvent`, whose arrays are those of the list. -/
theorem resetEventRestoresEveryElement : Obligations.ResetEventRestoresEveryElement := by
  intro s es
  rw [← replicate_pubInit_eq_literal, ← replicate_zero_eq_literal]
  exact step_reset (s := { s with events := .reset :: es }) rfl

end Sys2Proof.Machine
end

section
/-! PROOF of O1, O3, O4, O9 (30_encoding.md R80 to R92) and O8 (20_memory.md R66). A row of the opcode table is read off
the opcode and the fields of its format, which are what the encoder wrote there; the other way, a word with its reserved
bits cleared is the appending of its format's fields. -/
namespace Sys2Proof.Machine

/-! ## Decode of encode -/

/-- Settles O1, by evaluation. -/
theorem sampleWordsDecode : Obligations.SampleWordsDecode := by
  unfold Obligations.SampleWordsDecode
  decide

/-- The row of PD.SETUP by its fields (30_encoding.md R82, R83); PD.EDGE's is `decode_edge_of_pdEdge`. -/
theorem decodeCmd_of_pdSetup {w : Word} (h : opcodeField w = 0x01#8) :
    decodeCmd w = .instr (.pdSetup (decodeLine (lineField w)) (decodePol (polField w))) := by
  simp [decodeCmd, h]

theorem decodeCmd_of_leSetCommand {w : Word} (h : opcodeField w = 0x11#8) :
    decodeCmd w = .instr (.leSetCommand (decodeCommandId (idField w)) (valueField w)) := by
  simp [decodeCmd, h]

theorem decodeCmd_of_leSetConfig {w : Word} (h : opcodeField w = 0x13#8) :
    decodeCmd w = .instr (.leSetConfig (decodeConfigId (idField w)) (valueField w)) := by
  simp [decodeCmd, h]

theorem decodeCmd_of_leReadTelem {w : Word} (h : opcodeField w = 0x14#8) :
    decodeCmd w = .instr (.leReadTelem (decodeSel (selField w))) := by
  simp [decodeCmd, h]

/-- Settles O3, by the row: the decoder reads back the fields the encoder wrote, and each operand from its code. -/
theorem decodeInvertsEncode : Obligations.DecodeInvertsEncode := by
  intro i hwf
  cases i with
  | pdSetup l p =>
    obtain ⟨hl, hp⟩ := Bool.and_eq_true_iff.mp hwf
    refine (decodeCmd_of_pdSetup (opcodeField_formatS ..)).trans ?_
    rw [lineField_formatS, polField_formatS, decodeLine_code hl, decodePol_code hp]
  | pdRead => rfl
  | pdEdge l p =>
    obtain ⟨hl, hp⟩ := Bool.and_eq_true_iff.mp hwf
    refine (decode_edge_of_pdEdge (opcodeField_formatS ..)).trans ?_
    rw [lineField_formatS, polField_formatS, decodeLine_code hl, decodePol_code hp]
  | leBeginBind => rfl
  | leSetCommand id v =>
    refine (decodeCmd_of_leSetCommand (opcodeField_formatK ..)).trans ?_
    rw [idField_formatK, valueField_formatK, decodeCommandId_code hwf]
  | leAdvance => rfl
  | leSetConfig id v =>
    refine (decodeCmd_of_leSetConfig (opcodeField_formatK ..)).trans ?_
    rw [idField_formatK, valueField_formatK, decodeConfigId_code hwf]
  | leReadTelem sel =>
    refine (decodeCmd_of_leReadTelem (opcodeField_formatT ..)).trans ?_
    rw [selField_formatT, decodeSel_code]
  | leReadState => rfl

/-! ## Encode of decode -/

theorem decodeCommandId_wellFormed (c : Byte) : (decodeCommandId c).wellFormed = true := by
  unfold decodeCommandId
  split_ifs <;> simp only [CommandId.wellFormed, decide_eq_true_eq]
  bv_omega

theorem decodeConfigId_wellFormed (c : Byte) : (decodeConfigId c).wellFormed = true := by
  unfold decodeConfigId
  split_ifs <;> simp only [ConfigId.wellFormed, decide_eq_true_eq]
  bv_omega

theorem code_decodeCommandId (c : Byte) : (decodeCommandId c).code = c := by
  unfold decodeCommandId
  split_ifs <;> simp only [CommandId.code, *]

theorem code_decodeConfigId (c : Byte) : (decodeConfigId c).code = c := by
  unfold decodeConfigId
  split_ifs <;> simp only [ConfigId.code, *]

/-- Two adjacent fields of a word are one field. -/
theorem extractLsb'_append_adjacent (w : Word) (start n m : Nat) :
    w.extractLsb' (start + m) n ++ w.extractLsb' start m = w.extractLsb' start (n + m) :=
  BitVec.extractLsb'_append_extractLsb'_eq_extractLsb' rfl

/-- A mask made of appended parts acts on each part of the word. -/
theorem extractLsb'_and_append (w : Word) {start n m : Nat} (x : BitVec n) (y : BitVec m) :
    w.extractLsb' start (n + m) &&& (x ++ y) =
      (w.extractLsb' (start + m) n &&& x) ++ (w.extractLsb' start m &&& y) := by
  rw [← extractLsb'_append_adjacent, BitVec.and_append]

theorem formatN_opcodeField (w : Word) : formatN (opcodeField w) = w &&& 0xFF000000#32 := by
  have hmask := extractLsb'_and_append w (start := 0) (BitVec.allOnes 8) 0#24
  rw [BitVec.and_allOnes, BitVec.and_zero, extractLsb'_whole] at hmask
  exact hmask.symm

theorem formatS_fields (w : Word) : formatS (opcodeField w) (lineField w) (polField w) = w &&& 0xFF00FFFF#32 := by
  have hmask := extractLsb'_and_append w (start := 0) (BitVec.allOnes 8 ++ 0#8 ++ BitVec.allOnes 8) (BitVec.allOnes 8)
  rw [extractLsb'_and_append w (BitVec.allOnes 8 ++ 0#8), extractLsb'_and_append w (BitVec.allOnes 8) 0#8,
    BitVec.and_zero, BitVec.and_allOnes, BitVec.and_allOnes, BitVec.and_allOnes, extractLsb'_whole] at hmask
  exact hmask.symm

theorem formatK_fields (w : Word) : formatK (opcodeField w) (idField w) (valueField w) = w := by
  have hword := extractLsb'_append_adjacent w 0 16 16
  rw [← extractLsb'_append_adjacent w (0 + 16) 8 8, extractLsb'_whole] at hword
  exact hword

theorem formatT_fields (w : Word) : formatT (opcodeField w) (selField w) = w &&& 0xFF000001#32 := by
  have hmask := extractLsb'_and_append w (start := 0) (BitVec.allOnes 8 ++ 0#23) (BitVec.allOnes 1)
  rw [extractLsb'_and_append w (BitVec.allOnes 8) 0#23, BitVec.and_zero, BitVec.and_allOnes, BitVec.and_allOnes,
    extractLsb'_whole] at hmask
  exact hmask.symm

/-- The rows of the CMD port, each with its format's word. -/
theorem encode_of_decodeCmd {w : Word} {i : Instr} (h : decodeCmd w = .instr i) :
    i.wellFormed = true ∧ i.port = .cmd ∧ encode i = w &&& usedBits (opcodeField w) := by
  unfold decodeCmd at h
  split_ifs at h with h01 h02 h10 h11 h12 h13 h14 h15
  · cases h
    refine ⟨Bool.and_eq_true_iff.mpr ⟨decodeLine_wellFormed _, decodePol_wellFormed _⟩, rfl, ?_⟩
    rw [encode, code_decodeLine, code_decodePol, ← h01, formatS_fields, h01]
    rfl
  · cases h
    refine ⟨rfl, rfl, ?_⟩
    rw [encode, ← h02, formatN_opcodeField, h02]
    rfl
  · cases h
    refine ⟨rfl, rfl, ?_⟩
    rw [encode, ← h10, formatN_opcodeField, h10]
    rfl
  · cases h
    refine ⟨decodeCommandId_wellFormed _, rfl, ?_⟩
    rw [encode, code_decodeCommandId, ← h11, formatK_fields, and_usedBits_of_formatK (.inl h11)]
  · cases h
    refine ⟨rfl, rfl, ?_⟩
    rw [encode, ← h12, formatN_opcodeField, h12]
    rfl
  · cases h
    refine ⟨decodeConfigId_wellFormed _, rfl, ?_⟩
    rw [encode, code_decodeConfigId, ← h13, formatK_fields, and_usedBits_of_formatK (.inr h13)]
  · cases h
    refine ⟨rfl, rfl, ?_⟩
    rw [encode, code_decodeSel, ← h14, formatT_fields, h14]
    rfl
  · cases h
    refine ⟨rfl, rfl, ?_⟩
    rw [encode, ← h15, formatN_opcodeField, h15]
    rfl

/-- The one row of the EDGE port. -/
theorem encode_of_decodeEdge {w : Word} {i : Instr} (h : decodeEdge w = .instr i) :
    i.wellFormed = true ∧ i.port = .edge ∧ encode i = w &&& usedBits (opcodeField w) := by
  unfold decodeEdge at h
  split_ifs at h with h03
  cases h
  refine ⟨Bool.and_eq_true_iff.mpr ⟨decodeLine_wellFormed _, decodePol_wellFormed _⟩, rfl, ?_⟩
  rw [encode, code_decodeLine, code_decodePol, ← h03, formatS_fields, h03]
  rfl

/-- Settles O4, by the port. -/
theorem encodeInvertsDecode : Obligations.EncodeInvertsDecode := by
  intro p w i h
  cases p with
  | cmd => exact encode_of_decodeCmd h
  | edge => exact encode_of_decodeEdge h

/-! ## The instruction a step runs -/

/-- Settles O8: the steps of the two kinds of event that carry a word. -/
theorem stepRunsTheDecodedInstruction : Obligations.StepRunsTheDecodedInstruction :=
  ⟨fun s w us ms d es _ hd => step_cmd (s := { s with events := .cmd w us ms d :: es }) rfl hd,
    fun s w us es _ hd => step_edge (s := { s with events := .edge w us :: es }) rfl hd⟩

theorem opcodeField_encode (i : Instr) : opcodeField (encode i) = i.opcode := by
  cases i with
  | pdSetup l p => exact Laws.Row.pdSetup l p
  | pdRead => exact Laws.Row.pdRead
  | pdEdge l p => exact Laws.Row.pdEdge l p
  | leBeginBind => exact Laws.Row.leBeginBind
  | leSetCommand id v => exact Laws.Row.leSetCommand id v
  | leAdvance => exact Laws.Row.leAdvance
  | leSetConfig id v => exact Laws.Row.leSetConfig id v
  | leReadTelem sel => exact Laws.Row.leReadTelem sel
  | leReadState => exact Laws.Row.leReadState

/-- All 32 bits of a word are kept when it is placed as an opcode-table word. -/
theorem tableWord_toNat (w : Word) : tableWord 32 w.toNat = w := by
  rw [tableWord, Nat.mod_eq_of_lt w.isLt, BitVec.ofNat_toNat, BitVec.setWidth_eq]

theorem wordEvent_encode_of_cmd {i : Instr} (h : i.port = .cmd) (s : State) :
    wordEvent s (encode i) = .cmd (encode i) s.inputs.nowUs s.inputs.nowMs s.inputs.draws := by
  have hport : portOfOpcode (opcodeField (encode i)) = .cmd := (opcodeField_encode i).symm ▸ h
  simp only [wordEvent, hport]

theorem wordEvent_encode_of_edge {i : Instr} (h : i.port = .edge) (s : State) :
    wordEvent s (encode i) = .edge (encode i) s.inputs.nowUs := by
  have hport : portOfOpcode (opcodeField (encode i)) = .edge := (opcodeField_encode i).symm ▸ h
  simp only [wordEvent, hport]

/-- Settles O9: the placed event latches the inputs the state already holds, and its word decodes to the instruction. -/
theorem placedWordRunsNext : Obligations.PlacedWordRunsNext := by
  intro s i hwf
  have hdecode : decode i.port (encode i) = .instr i := decodeInvertsEncode i hwf
  rw [State.withFetchWord, tableWord_toNat]
  cases hport : i.port with
  | cmd =>
    rw [wordEvent_encode_of_cmd hport]
    exact step_cmd rfl (hport ▸ hdecode)
  | edge =>
    rw [wordEvent_encode_of_edge hport]
    exact step_edge rfl (hport ▸ hdecode)

end Sys2Proof.Machine
end

section
/-! PROOF of the invariants O46, O47, O48, O50, and of progress O51 with O11. All of them turn on one inversion, said
once: `LinkMove` lists the ways a command of the CMD port can end, with the Link Engine, the transactions and the
response of each, and `exec_linkMove` says that there is no other. Each property is then a case split over that list.
-/
namespace Sys2Proof.Machine

/-! ## What a command does to the link -/

/-- Why a bind attempt starts, and the data of its OK response: LE.BEGIN_BIND (41_link_control.md R151), or an
LE.ADVANCE that rebinds at a fired deadline (42_link_binding.md R181). -/
inductive BindCause (P : Params) (s : State) : Instr → List Word → Prop
  | beginBind : BindCause P s .leBeginBind []
  | deadline (hp : s.le.phase = .binding) (hpolicy : P.deadlinePolicy = .rebind)
      (hfired : deadlineFires s.inputs.nowMs s.le = true) : BindCause P s .leAdvance [tRebind]

/-- The ways a command of the CMD port can end, one constructor for each: the Link Engine it leaves, the transactions it
issues, and the status and data of its response. -/
inductive LinkMove (P : Params) (s : State) : Instr → LinkEngine → List DriverTxn → Status → List Word → Prop
  /-- The Pulse Decoder's commands, the reads, LE.SET_CONFIG and a rejected LE.SET_COMMAND. -/
  | keep {i : Instr} {st : Status} {data : List Word} (hi : i ≠ .leAdvance)
      (hok : st = .ok → data.length = okDataLength i) (herr : st ≠ .ok → data = []) : LinkMove P s i s.le [] st data
  | command (id : CommandId) (v : Half) (cmd : CommandSet) :
      LinkMove P s (.leSetCommand id v) { s.le with cmd := cmd } [] .ok []
  | start {i : Instr} {data : List Word} (hcause : BindCause P s i data) (hinit : s.inputs.draws.initOk = true) :
      LinkMove P s i (s.le.startAttempt P s.inputs.draws) [.init, .computeTimeout] .ok data
  | abort {i : Instr} {data : List Word} (hcause : BindCause P s i data) (hinit : s.inputs.draws.initOk = false) :
      LinkMove P s i s.le.abortAttempt [.init] .initFail []
  | idle (hp : s.le.phase = .idle) : LinkMove P s .leAdvance s.le [] .idle [tIdle]
  | write (hp : s.le.phase = .binding) (haw : s.le.awaitingWrite = false) (hstep : OddBindStep s.le.step) :
      LinkMove P s .leAdvance { s.le with awaitingWrite := true }
        [.writeFrame (bindFrame P (bindTag P s.le.step) s.le.channel s.le.sessionId) 16 s.le.channel] .ok
        [P.tBindWrite]
  | followUp (hp : s.le.phase = .binding) (haw : s.le.awaitingWrite = true) (hstep : OddBindStep s.le.step) :
      LinkMove P s .leAdvance { s.le with awaitingWrite := false, step := s.le.step + 1#4 } [.strobe .rx] .ok
        [P.tBindRx]
  | restart (hp : s.le.phase = .binding) (haw : s.le.awaitingWrite = false)
      (hstep : s.le.step = 2#4 ∨ s.le.step = 4#4 ∨ s.le.step = 6#4) :
      LinkMove P s .leAdvance { s.le with step := 1#4, awaitingWrite := false } [.isBusy] .ok [P.tBindRestart]
  | read (hp : s.le.phase = .binding) (haw : s.le.awaitingWrite = false)
      (hstep : s.le.step = 2#4 ∨ s.le.step = 4#4 ∨ s.le.step = 6#4) :
      LinkMove P s .leAdvance { s.le with step := s.le.step + 1#4 }
        ([.isBusy, .readFrame 16] ++ if s.le.step = 4#4 then [.writeId (linkAddress s.inputs.draws.rx)] else []) .ok
        [P.tBindRead]
  | fail (hp : s.le.phase = .binding) (haw : s.le.awaitingWrite = false) (hstep : s.le.step = 8#4) :
      LinkMove P s .leAdvance s.le.fallBack [.isBusy] .ok [P.tBindFail]
  | retry (hp : s.le.phase = .binding) (haw : s.le.awaitingWrite = false) (hstep : s.le.step = 8#4) :
      LinkMove P s .leAdvance s.le.fallBack [.isBusy, .readFrame 16] .ok [P.tBindRetry]
  | link (hp : s.le.phase = .binding) (haw : s.le.awaitingWrite = false) (hstep : s.le.step = 8#4) :
      LinkMove P s .leAdvance s.le.enterLinked [.isBusy, .readFrame 16, .writeReg P.codeRateReg P.codeRateVal] .ok
        [P.tLinkSettle]
  | transmit (hp : s.le.phase = .linked) (ht : s.le.tphase = .transmit) :
      LinkMove P s .leAdvance
        { s.le with frameCount := BitVec.ofNat 32 (min s.le.ordinal (2 ^ 32 - 1)), tphase := .awaitTransmit }
        ((if s.le.step = 1#4 then [.setPower s.cfg.txPower] else []) ++
          [.writeFrame (dataFrame P s.le.cmd s.le.ordinal s.cfg) 16 (uplinkChannel P s.le)]) .ok [P.tTx]
  | awaitBusy (hp : s.le.phase = .linked) (ht : s.le.tphase = .awaitTransmit) :
      LinkMove P s .leAdvance s.le [.isBusy] .ok [P.tAwaitBusy]
  | awaitDone (hp : s.le.phase = .linked) (ht : s.le.tphase = .awaitTransmit) :
      LinkMove P s .leAdvance { s.le with pollCount := 0#3, tphase := .pollReceive } [.isBusy, .strobe .rx] .ok
        [P.tAwaitDone]
  | pollBusy (hp : s.le.phase = .linked) (ht : s.le.tphase = .pollReceive) :
      LinkMove P s .leAdvance s.le.countPoll [.isBusy] .ok [P.tPoll]
  | poll (hp : s.le.phase = .linked) (ht : s.le.tphase = .pollReceive) (hbusy : s.inputs.draws.busy = false) :
      LinkMove P s .leAdvance (s.le.telemetryDecode P s.inputs.draws.rx).countPoll
        [.isBusy, .readFrame 16, .strobe .rx] .ok [P.tPoll]

/-- `s` with its Link Engine replaced and a command's outputs appended: the transactions, then one response. -/
def State.answered (s : State) (le : LinkEngine) (txns : List DriverTxn) (st : Status) (data : List Word) : State :=
  { s with le := le, log := s.log ++ (txns.map .driver ++ [.response st data]) }

@[simp] theorem State.answered_le (s : State) (le : LinkEngine) (txns : List DriverTxn) (st : Status)
    (data : List Word) : (s.answered le txns st data).le = le := rfl

/-- The read that finds a frame, as an answer. -/
theorem bindRead_eq_answered {P : Params} {s : State} (h : s.inputs.draws.busy = false) :
    bindRead P s = s.answered { s.le with step := s.le.step + 1#4 }
      ([.isBusy, .readFrame 16] ++ if s.le.step = 4#4 then [.writeId (linkAddress s.inputs.draws.rx)] else []) .ok
      [P.tBindRead] := by
  rw [bindRead_of_ready h, State.answered]
  split_ifs <;> simp

/-- LINK-TRANSMIT, as an answer. -/
theorem linkTransmit_eq_answered (P : Params) (s : State) :
    linkTransmit P s = s.answered
      { s.le with frameCount := BitVec.ofNat 32 (min s.le.ordinal (2 ^ 32 - 1)), tphase := .awaitTransmit }
      ((if s.le.step = 1#4 then [.setPower s.cfg.txPower] else []) ++
        [.writeFrame (dataFrame P s.le.cmd s.le.ordinal s.cfg) 16 (uplinkChannel P s.le)]) .ok [P.tTx] := by
  rw [linkTransmit_eq, State.answered]
  split_ifs <;> simp

/-! ### LE.ADVANCE, branch by branch -/

section
variable {P : Params} {s : State}

theorem beginBind_linkMove {i : Instr} {data : List Word} (hcause : BindCause P s i data) :
    ∃ le txns st out, LinkMove P s i le txns st out ∧ s.beginBind P data = s.answered le txns st out := by
  cases hinit : s.inputs.draws.initOk with
  | true => exact ⟨_, _, _, _, .start hcause hinit, beginBind_of_initOk hinit⟩
  | false => exact ⟨_, _, _, _, .abort hcause hinit, beginBind_of_initFail hinit⟩

theorem bindWrite_linkMove (hp : s.le.phase = .binding) (haw : s.le.awaitingWrite = false)
    (hstep : OddBindStep s.le.step) :
    ∃ le txns st out, LinkMove P s .leAdvance le txns st out ∧ bindWrite P s = s.answered le txns st out :=
  ⟨_, _, _, _, .write hp haw hstep, bindWrite_eq P s⟩

theorem bindFollowUp_linkMove (hp : s.le.phase = .binding) (haw : s.le.awaitingWrite = true)
    (hstep : OddBindStep s.le.step) :
    ∃ le txns st out, LinkMove P s .leAdvance le txns st out ∧ bindFollowUp P s = s.answered le txns st out :=
  ⟨_, _, _, _, .followUp hp haw hstep, bindFollowUp_eq P s⟩

/-- BIND-READ, by the driver's busy answer. -/
theorem bindRead_linkMove (hp : s.le.phase = .binding) (haw : s.le.awaitingWrite = false)
    (hstep : s.le.step = 2#4 ∨ s.le.step = 4#4 ∨ s.le.step = 6#4) :
    ∃ le txns st out, LinkMove P s .leAdvance le txns st out ∧ bindRead P s = s.answered le txns st out := by
  cases hbusy : s.inputs.draws.busy with
  | true => exact ⟨_, _, _, _, .restart hp haw hstep, bindRead_of_busy hbusy⟩
  | false => exact ⟨_, _, _, _, .read hp haw hstep, bindRead_eq_answered hbusy⟩

/-- BIND-RESOLVE, by `cfg.forceBind`, the busy answer and the sentinel. -/
theorem bindResolve_linkMove (hp : s.le.phase = .binding) (haw : s.le.awaitingWrite = false)
    (hstep : s.le.step = 8#4) :
    ∃ le txns st out, LinkMove P s .leAdvance le txns st out ∧ bindResolve P s = s.answered le txns st out := by
  by_cases hlink : s.cfg.forceBind = true ∨
      (s.inputs.draws.busy = false ∧ s.inputs.draws.rx[1] = Config.sentinel)
  · exact ⟨_, _, _, _, .link hp haw hstep, bindResolve_of_link hlink⟩
  · rw [not_or, Bool.not_eq_true] at hlink
    obtain ⟨hforce, hmiss⟩ := hlink
    cases hbusy : s.inputs.draws.busy with
    | true => exact ⟨_, _, _, _, .fail hp haw hstep, bindResolve_of_busy hbusy hforce⟩
    | false =>
      exact ⟨_, _, _, _, .retry hp haw hstep, bindResolve_of_retry hbusy hforce fun e => hmiss ⟨hbusy, e⟩⟩

theorem linkTransmit_linkMove (hp : s.le.phase = .linked) (ht : s.le.tphase = .transmit) :
    ∃ le txns st out, LinkMove P s .leAdvance le txns st out ∧ linkTransmit P s = s.answered le txns st out :=
  ⟨_, _, _, _, .transmit hp ht, linkTransmit_eq_answered P s⟩

theorem linkAwait_linkMove (hp : s.le.phase = .linked) (ht : s.le.tphase = .awaitTransmit) :
    ∃ le txns st out, LinkMove P s .leAdvance le txns st out ∧ linkAwait P s = s.answered le txns st out := by
  cases hbusy : s.inputs.draws.busy with
  | true => exact ⟨_, _, _, _, .awaitBusy hp ht, linkAwait_of_busy hbusy⟩
  | false => exact ⟨_, _, _, _, .awaitDone hp ht, linkAwait_of_ready hbusy⟩

theorem linkPoll_linkMove (hp : s.le.phase = .linked) (ht : s.le.tphase = .pollReceive) :
    ∃ le txns st out, LinkMove P s .leAdvance le txns st out ∧ linkPoll P s = s.answered le txns st out := by
  cases hbusy : s.inputs.draws.busy with
  | true => exact ⟨_, _, _, _, .pollBusy hp ht, linkPoll_of_busy hbusy⟩
  | false => exact ⟨_, _, _, _, .poll hp ht hbusy, linkPoll_of_ready hbusy⟩

end

/-- Every LE.ADVANCE that answers is one of the moves. -/
theorem advance_linkMove {P : Params} {s t : State} (h : advance P s = .next t) :
    ∃ le txns st data, LinkMove P s .leAdvance le txns st data ∧ t = s.answered le txns st data := by
  rcases advance_cases h with ⟨hp, rfl⟩ | ⟨hp, hpolicy, hfired, rfl⟩ | ⟨hp, hb, rfl⟩ | ⟨hp, hb, rfl⟩ | ⟨hp, hb, rfl⟩ |
    ⟨hp, hb, rfl⟩ | ⟨hp, ht, rfl⟩ | ⟨hp, ht, rfl⟩ | ⟨hp, ht, rfl⟩
  · exact ⟨_, _, _, _, .idle hp, rfl⟩
  · exact beginBind_linkMove (.deadline hp hpolicy hfired)
  · obtain ⟨-, haw, hstep⟩ | ⟨⟨⟩, -⟩ | ⟨⟨⟩, -⟩ | ⟨⟨⟩, -⟩ := bindBranch_cases hb
    exact bindWrite_linkMove hp haw hstep
  · obtain ⟨⟨⟩, -⟩ | ⟨-, haw, hstep⟩ | ⟨⟨⟩, -⟩ | ⟨⟨⟩, -⟩ := bindBranch_cases hb
    exact bindFollowUp_linkMove hp haw hstep
  · obtain ⟨⟨⟩, -⟩ | ⟨⟨⟩, -⟩ | ⟨-, haw, hstep⟩ | ⟨⟨⟩, -⟩ := bindBranch_cases hb
    exact bindRead_linkMove hp haw hstep
  · obtain ⟨⟨⟩, -⟩ | ⟨⟨⟩, -⟩ | ⟨⟨⟩, -⟩ | ⟨-, haw, hstep⟩ := bindBranch_cases hb
    exact bindResolve_linkMove hp haw hstep
  · exact linkTransmit_linkMove hp ht
  · exact linkAwait_linkMove hp ht
  · exact linkPoll_linkMove hp ht

/-! ### Every instruction, and every step -/

theorem readWords_length (pd : PulseDecoder) : pd.readWords.length = 9 := by simp [PulseDecoder.readWords]

/-- Every command that answers is one of the moves; beside them it may have written the Pulse Decoder
(`exec_pd_cases`) or, if it is LE.SET_CONFIG, the configuration. -/
theorem exec_linkMove {i : Instr} {s t : State} (hport : i.port = .cmd) (h : exec i s = .next t) :
    ∃ le txns st data, LinkMove Config.params s i le txns st data ∧
      (t.cfg = s.cfg ∨ ∃ id v, i = .leSetConfig id v) ∧
      t = { s.answered le txns st data with pd := t.pd, cfg := t.cfg } := by
  cases i with
  | pdSetup l p =>
    simp only [exec] at h
    rcases execPdSetup_cases l p with ⟨a, b, e⟩ | e <;> rw [e] at h <;> cases h
    · exact ⟨_, _, _, _, .keep nofun (fun _ => rfl) (fun _ => rfl), .inl rfl, rfl⟩
    · exact ⟨_, _, _, _, .keep nofun (fun _ => rfl) (fun _ => rfl), .inl rfl, rfl⟩
  | pdRead => cases h; exact ⟨_, _, _, _, .keep nofun (fun _ => readWords_length s.pd) nofun, .inl rfl, rfl⟩
  | pdEdge l p => cases hport
  | leBeginBind =>
    obtain ⟨le, txns, st, data, hm, e⟩ := beginBind_linkMove (P := Config.params) (s := s) .beginBind
    rw [exec_leBeginBind, e] at h
    cases h
    exact ⟨_, _, _, _, hm, .inl rfl, rfl⟩
  | leSetCommand id v =>
    cases hc : s.le.cmd.ingest Config.params id v with
    | some c =>
      rw [exec_leSetCommand_of_some hc] at h
      cases h
      exact ⟨_, _, _, _, .command id v c, .inl rfl, rfl⟩
    | none =>
      rw [exec_leSetCommand_of_none hc] at h
      cases h
      exact ⟨_, _, _, _, .keep nofun (fun _ => rfl) (fun _ => rfl), .inl rfl, rfl⟩
  | leAdvance =>
    obtain ⟨le, txns, st, data, hm, rfl⟩ := advance_linkMove h
    exact ⟨_, _, _, _, hm, .inl rfl, rfl⟩
  | leSetConfig id v =>
    cases hc : s.cfg.write id v with
    | some c =>
      rw [exec_leSetConfig_of_some hc] at h
      cases h
      exact ⟨_, _, _, _, .keep nofun (fun _ => rfl) (fun _ => rfl), .inr ⟨id, v, rfl⟩, rfl⟩
    | none =>
      rw [exec_leSetConfig_of_none hc] at h
      cases h
      exact ⟨_, _, _, _, .keep nofun (fun _ => rfl) (fun _ => rfl), .inl rfl, rfl⟩
  | leReadTelem sel => cases h; exact ⟨_, _, _, _, .keep nofun (fun _ => rfl) nofun, .inl rfl, rfl⟩
  | leReadState => cases h; exact ⟨_, _, _, _, .keep nofun (fun _ => stateWords_length s) nofun, .inl rfl, rfl⟩

/-- PD.EDGE may write the Pulse Decoder and nothing else (40_pulse_decoder.md R120, R122). -/
theorem exec_pdEdge_frame {l : LineField} {p : PolField} {s t : State} (h : exec (.pdEdge l p) s = .next t) :
    t = { s with pd := t.pd } := by
  simp only [exec, execPdEdge_eq] at h
  cases h
  rfl

/-- The transactions among a command's outputs. -/
theorem transactionsOf_answer (txns : List DriverTxn) (st : Status) (data : List Word) :
    transactionsOf (txns.map .driver ++ [.response st data]) = txns := by
  induction txns with
  | nil => rfl
  | cons t txns ih => exact congrArg (t :: ·) ih

/-- What one step can do to the link: a command's move, a RESET, or nothing, with no driver transaction. -/
theorem step_link_cases {s t : State} (h : step s = .next t) :
    (t.le = s.le ∧ ∃ out, t.log = s.log ++ out ∧ transactionsOf out = []) ∨
    (t.le = .reset ∧ t.log = s.log) ∨
    (∃ u i txns st data, u.le = s.le ∧ LinkMove Config.params u i t.le txns st data ∧
      t.log = s.log ++ (txns.map .driver ++ [.response st data])) := by
  rcases step_cases h with ⟨-, rfl⟩ | ⟨es, -, rfl⟩ | ⟨w, us, ms, d, es, i, -, hd, hx⟩ |
    ⟨w, us, ms, d, es, op, -, -, rfl⟩ | ⟨w, us, es, i, -, hd, hx⟩ | ⟨w, us, es, op, -, -, rfl⟩
  · exact .inl ⟨rfl, [], (List.append_nil _).symm, rfl⟩
  · exact .inr (.inl ⟨rfl, rfl⟩)
  · obtain ⟨-, hport, -⟩ := encodeInvertsDecode .cmd w i hd
    obtain ⟨le, txns, st, data, hm, -, e⟩ := exec_linkMove hport hx
    rw [e]
    exact .inr (.inr ⟨({ s with events := es } : State).latchCmd us ms d, i, txns, st, data, rfl, hm, rfl⟩)
  · exact .inl ⟨rfl, [.response .illegal []], rfl, rfl⟩
  · obtain ⟨l, p, rfl⟩ := decode_edge_eq_pdEdge hd
    rw [exec_pdEdge_frame hx]
    exact .inl ⟨rfl, [], (List.append_nil _).symm, rfl⟩
  · exact .inl ⟨rfl, [], (List.append_nil _).symm, rfl⟩

/-- An invariant of the Link Engine: it holds at reset and every move keeps it, so every step does. -/
theorem step_keeps_link {I : LinkEngine → Prop} (hreset : I .reset)
    (hmove : ∀ {u : State} {i : Instr} {le : LinkEngine} {txns : List DriverTxn} {st : Status} {data : List Word},
      I u.le → LinkMove Config.params u i le txns st data → I le)
    {s t : State} (hs : I s.le) (h : step s = .next t) : I t.le := by
  rcases step_link_cases h with ⟨e, -⟩ | ⟨e, -⟩ | ⟨u, i, txns, st, data, hu, hm, -⟩
  · exact e ▸ hs
  · exact e ▸ hreset
  · exact hmove (hu ▸ hs) hm

/-! ## The sequencer (10_state.md R42) and progress -/

theorem sequencerLegal_of_idle {le : LinkEngine} (hp : le.phase = .idle) (hstep : le.step = 0#4)
    (haw : le.awaitingWrite = false) : SequencerLegal le :=
  ⟨fun _ => ⟨hstep, haw⟩, fun h => (nomatch hp.symm.trans h), fun h => (nomatch hp.symm.trans h)⟩

theorem sequencerLegal_of_binding {le : LinkEngine} (hp : le.phase = .binding)
    (hstep : 1 ≤ le.step.toNat ∧ le.step.toNat ≤ 8) (haw : le.awaitingWrite = true → OddBindStep le.step) :
    SequencerLegal le :=
  ⟨fun h => (nomatch hp.symm.trans h), fun _ => ⟨hstep, haw⟩, fun h => (nomatch hp.symm.trans h)⟩

theorem sequencerLegal_of_linked {le : LinkEngine} (hp : le.phase = .linked)
    (hstep : 1 ≤ le.step.toNat ∧ le.step.toNat ≤ 5) (haw : le.awaitingWrite = false) : SequencerLegal le :=
  ⟨fun h => (nomatch hp.symm.trans h), fun h => (nomatch hp.symm.trans h), fun _ => ⟨hstep, haw⟩⟩

theorem sequencerLegal_reset : SequencerLegal .reset := sequencerLegal_of_idle rfl rfl rfl

theorem oddBindStep_range {step : BitVec 4} (h : OddBindStep step) : 1 ≤ step.toNat ∧ step.toNat ≤ 8 := by
  revert step; decide

theorem bindStep_succ_range {step : BitVec 4} (h : OddBindStep step ∨ step = 2#4 ∨ step = 4#4 ∨ step = 6#4) :
    1 ≤ (step + 1#4).toNat ∧ (step + 1#4).toNat ≤ 8 := by
  revert step; decide

/-- The sub-steps of Linked follow each other cyclically (43_link_linked.md R207). -/
theorem nextSubStep_range (n : Nat) :
    1 ≤ (BitVec.ofNat 4 (n % 5 + 1)).toNat ∧ (BitVec.ofNat 4 (n % 5 + 1)).toNat ≤ 5 := by
  rw [BitVec.toNat_ofNat]
  omega

/-- The decoder writes only the telemetry buffers. -/
theorem telemetryDecode_frame (P : Params) (rx : Frame) (le : LinkEngine) :
    ∃ a b va vb, le.telemetryDecode P rx =
      { le with telemA := a, telemB := b, telemValidA := va, telemValidB := vb } := by
  rcases telemetryDecode_cases P rx le with ⟨-, -, e⟩ | ⟨-, -, e⟩ | e
  · exact ⟨rx, le.telemB, true, le.telemValidB, e⟩
  · exact ⟨le.telemA, rx, le.telemValidA, true, e⟩
  · exact ⟨le.telemA, le.telemB, le.telemValidA, le.telemValidB, e⟩

/-- Counting a poll writes only the poll count, the sub-step and its phase. -/
theorem countPoll_frame (le : LinkEngine) :
    ∃ n step tphase, le.countPoll = { le with pollCount := n, step := step, tphase := tphase } := by
  rcases countPoll_cases le with ⟨-, e⟩ | ⟨-, e⟩
  · exact ⟨_, _, _, e⟩
  · exact ⟨_, le.step, le.tphase, e⟩

/-- A poll that finds a frame writes only those. -/
theorem poll_frame (P : Params) (rx : Frame) (le : LinkEngine) :
    ∃ n step tphase a b va vb, (le.telemetryDecode P rx).countPoll =
      { le with
        pollCount := n, step := step, tphase := tphase
        telemA := a, telemB := b, telemValidA := va, telemValidB := vb } := by
  obtain ⟨n, step, tphase, e⟩ := countPoll_frame (le.telemetryDecode P rx)
  obtain ⟨a, b, va, vb, e'⟩ := telemetryDecode_frame P rx le
  exact ⟨n, step, tphase, a, b, va, vb, by rw [e, e']⟩

theorem countPoll_sequencerLegal {le : LinkEngine} (hp : le.phase = .linked) (hl : SequencerLegal le) :
    SequencerLegal le.countPoll := by
  obtain ⟨-, -, hlinked⟩ := hl
  obtain ⟨hstep, haw⟩ := hlinked hp
  rcases countPoll_cases le with ⟨-, e⟩ | ⟨-, e⟩ <;> rw [e]
  · exact sequencerLegal_of_linked hp (nextSubStep_range _) haw
  · exact sequencerLegal_of_linked hp hstep haw

theorem linkMove_sequencerLegal {P : Params} {s : State} {i : Instr} {le : LinkEngine} {txns : List DriverTxn}
    {st : Status} {data : List Word} (hl : SequencerLegal s.le) (hm : LinkMove P s i le txns st data) :
    SequencerLegal le := by
  cases hm with
  | keep | command | idle | transmit | awaitBusy | awaitDone => exact hl
  | start => exact sequencerLegal_of_binding rfl (oddBindStep_range (.inl rfl)) nofun
  | abort => exact sequencerLegal_of_idle rfl rfl rfl
  | write hp haw hstep => exact sequencerLegal_of_binding hp (oddBindStep_range hstep) fun _ => hstep
  | followUp hp haw hstep => exact sequencerLegal_of_binding hp (bindStep_succ_range (.inl hstep)) nofun
  | restart hp => exact sequencerLegal_of_binding hp (oddBindStep_range (.inl rfl)) nofun
  | read hp haw hstep =>
    exact sequencerLegal_of_binding hp (bindStep_succ_range (.inr hstep)) fun h => (nomatch haw.symm.trans h)
  | fail hp | retry hp =>
    exact sequencerLegal_of_binding hp (oddBindStep_range (.inr (.inr (.inr rfl)))) nofun
  | link => exact sequencerLegal_of_linked rfl (show 1 ≤ (1#4).toNat ∧ (1#4).toNat ≤ 5 by decide) rfl
  | pollBusy hp ht => exact countPoll_sequencerLegal hp hl
  | poll hp ht hbusy =>
    obtain ⟨a, b, va, vb, e⟩ := telemetryDecode_frame P s.inputs.draws.rx s.le
    rw [e]
    exact countPoll_sequencerLegal hp hl

/-- Settles O46: the moves keep the combination legal. -/
theorem sequencerStaysLegal : Obligations.SequencerStaysLegal := by
  intro s t
  exact step_keeps_link sequencerLegal_reset linkMove_sequencerLegal

/-- From a legal sequencer the case table has a branch (42_link_binding.md R180). -/
theorem bindBranch_isSome {step : BitVec 4} {aw : Bool} (hstep : 1 ≤ step.toNat ∧ step.toNat ≤ 8)
    (haw : aw = true → OddBindStep step) : (bindBranch step aw).isSome = true := by
  revert step aw; decide

theorem advance_answers {P : Params} {s : State} (hl : SequencerLegal s.le) : ∃ t, advance P s = .next t := by
  obtain ⟨-, hbinding, -⟩ := hl
  cases hp : s.le.phase with
  | idle => exact ⟨_, advance_of_idle hp⟩
  | linked => exact ⟨advanceLinked P s, by simp only [advance, hp]⟩
  | binding =>
    by_cases hd : deadlineFires s.inputs.nowMs s.le = true ∧ P.deadlinePolicy = .rebind
    · exact ⟨s.beginBind P [tRebind], by simp only [advance, hp, advanceBinding, if_pos hd]⟩
    · obtain ⟨hstep, haw⟩ := hbinding hp
      obtain ⟨b, hb⟩ := Option.isSome_iff_exists.1 (bindBranch_isSome hstep haw)
      refine ⟨_, advance_of_branch hp ?_ hb⟩
      cases hpolicy : P.deadlinePolicy with
      | ignore => exact .inr rfl
      | rebind => exact .inl (Bool.eq_false_of_not_eq_true fun hfired => hd ⟨hfired, hpolicy⟩)

theorem exec_answers {s : State} (hl : SequencerLegal s.le) (i : Instr) : ∃ t, exec i s = .next t := by
  cases i with
  | pdSetup l p =>
    rcases execPdSetup_cases l p with ⟨a, b, e⟩ | e
    · exact ⟨_, e s⟩
    · exact ⟨_, e s⟩
  | pdRead => exact ⟨_, rfl⟩
  | pdEdge l p => exact ⟨_, execPdEdge_eq l p s⟩
  | leBeginBind => exact ⟨_, rfl⟩
  | leSetCommand id v => exact ⟨_, rfl⟩
  | leAdvance => exact advance_answers hl
  | leSetConfig id v =>
    cases hc : s.cfg.write id v with
    | some c => exact ⟨_, exec_leSetConfig_of_some hc⟩
    | none => exact ⟨_, exec_leSetConfig_of_none hc⟩
  | leReadTelem sel => exact ⟨_, rfl⟩
  | leReadState => exact ⟨_, rfl⟩

/-- A step with no event, a RESET, an unknown word or an instruction answers. -/
theorem step_answers {s : State} (hl : SequencerLegal s.le) : ∃ t, step s = .next t := by
  cases he : s.events with
  | nil => exact ⟨s, step_of_no_event he⟩
  | cons e es =>
    cases e with
    | reset => exact ⟨_, step_reset he⟩
    | cmd w us ms d =>
      by_cases hop : opcodeField w ∈ commandOpcodes
      · obtain ⟨i, hd, -⟩ := decode_cmd_of_mem hop
        rw [step_cmd he hd]
        exact exec_answers (s := { s with events := es, inputs := ⟨us, ms, d⟩ }) hl i
      · exact ⟨_, step_illegal he (decode_cmd_of_not_mem hop)⟩
    | edge w us =>
      by_cases hop : opcodeField w = 0x03#8
      · rw [step_edge he (decode_edge_of_pdEdge hop)]
        exact exec_answers (s := { s with events := es, inputs := { s.inputs with nowUs := us } }) hl _
      · exact ⟨_, step_discarded he (decode_edge_of_ne hop)⟩

/-- Progress and preservation, for any number of steps. -/
theorem runsOn_of_sequencerLegal (k : Nat) {s : State} (hl : SequencerLegal s.le) :
    ∃ t, RunsOn k s t ∧ SequencerLegal t.le := by
  induction k generalizing s with
  | zero => exact ⟨s, runsOn_zero.2 rfl, hl⟩
  | succ k ih =>
    obtain ⟨u, hu⟩ := step_answers hl
    obtain ⟨t, ht, htl⟩ := ih (sequencerStaysLegal s u hl hu)
    exact ⟨t, (runsOn_succ hu).2 ht, htl⟩

/-- Settles O51: the reset state is legal, and legal states step to legal states. -/
theorem machineNeverStops : Obligations.MachineNeverStops :=
  ⟨fun _ => step_answers, fun _ k => runsOn_of_sequencerLegal k sequencerLegal_reset⟩

/-! ## The poll count (43_link_linked.md R207, R210) -/

theorem pollLegal_of_binding {le : LinkEngine} (hp : le.phase = .binding) : PollLegal le :=
  fun h => (nomatch hp.symm.trans h)

theorem pollLegal_of_transmit {le : LinkEngine} (ht : le.tphase = .transmit) : PollLegal le :=
  fun _ h => (nomatch ht.symm.trans h)

/-- The seventh poll leaves PollReceive, and any other counts to at most six. -/
theorem countPoll_pollLegal {le : LinkEngine} (hn : le.pollCount.toNat < Config.polls) : PollLegal le.countPoll := by
  rcases countPoll_cases le with ⟨-, e⟩ | ⟨hmore, e⟩ <;> rw [e]
  · exact pollLegal_of_transmit rfl
  · intro _ _
    have hn : le.pollCount.toNat < 7 := hn
    show (BitVec.ofNat 3 (le.pollCount.toNat + 1)).toNat < 7
    rw [BitVec.toNat_ofNat]
    omega

theorem linkMove_pollLegal {P : Params} {s : State} {i : Instr} {le : LinkEngine} {txns : List DriverTxn}
    {st : Status} {data : List Word} (hl : PollLegal s.le) (hm : LinkMove P s i le txns st data) : PollLegal le := by
  cases hm with
  | keep | command | idle | awaitBusy => exact hl
  | start => exact pollLegal_of_binding rfl
  | abort => exact nofun
  | write hp | followUp hp | restart hp | read hp | fail hp | retry hp => exact pollLegal_of_binding hp
  | link => exact pollLegal_of_transmit rfl
  | transmit => exact fun _ => nofun
  | awaitDone => exact fun _ _ => (show (0#3).toNat < 7 by decide)
  | pollBusy hp ht => exact countPoll_pollLegal (hl hp ht)
  | poll hp ht hbusy =>
    obtain ⟨a, b, va, vb, e⟩ := telemetryDecode_frame P s.inputs.draws.rx s.le
    rw [e]
    exact countPoll_pollLegal (hl hp ht)

/-- Settles O47: at reset the engine is idle, and the moves keep the bound. -/
theorem pollCountStaysBelowTheBudget : Obligations.PollCountStaysBelowTheBudget := by
  intro s t
  exact step_keeps_link (I := PollLegal) nofun linkMove_pollLegal

/-! ## The channel and the deadline (10_state.md R38, R40) -/

/-- The drawn channel is one of the allowlist (41_link_control.md R153). -/
theorem startAttempt_channelLegal (P : Params) (d : Draws) (le : LinkEngine) :
    ChannelLegal P (le.startAttempt P d) :=
  fun _ => Vector.mem_toList_iff.2 (Vector.getElem_mem _)

/-- Outside Idle a move that goes on with the attempt keeps its channel. -/
theorem linkMove_channelLegal {P : Params} {s : State} {i : Instr} {le : LinkEngine} {txns : List DriverTxn}
    {st : Status} {data : List Word} (hl : ChannelLegal P s.le) (hm : LinkMove P s i le txns st data) :
    ChannelLegal P le := by
  cases hm with
  | keep | command | idle | write | followUp | restart | read | fail | retry | transmit | awaitBusy | awaitDone =>
    exact hl
  | start => exact startAttempt_channelLegal P _ _
  | abort => exact fun h => absurd rfl h
  | link hp => exact fun _ => hl (hp ▸ nofun)
  | pollBusy =>
    obtain ⟨n, step, tphase, e⟩ := countPoll_frame s.le
    rw [e]
    exact hl
  | poll =>
    obtain ⟨n, step, tphase, a, b, va, vb, e⟩ := poll_frame P s.inputs.draws.rx s.le
    rw [e]
    exact hl

theorem linkMove_deadlineLegal {P : Params} {s : State} {i : Instr} {le : LinkEngine} {txns : List DriverTxn}
    {st : Status} {data : List Word} (hl : DeadlineLegal s.le) (hm : LinkMove P s i le txns st data) :
    DeadlineLegal le := by
  cases hm with
  | keep | command | idle | write | followUp | restart | read | fail | retry | transmit | awaitBusy | awaitDone =>
    exact hl
  | start => exact iff_of_true rfl rfl
  | abort | link => exact iff_of_false nofun nofun
  | pollBusy =>
    obtain ⟨n, step, tphase, e⟩ := countPoll_frame s.le
    rw [e]
    exact hl
  | poll =>
    obtain ⟨n, step, tphase, a, b, va, vb, e⟩ := poll_frame P s.inputs.draws.rx s.le
    rw [e]
    exact hl

/-- Settles O48: each is an invariant of its own. -/
theorem channelAndDeadlineStayLegal : Obligations.ChannelAndDeadlineStayLegal := by
  intro s t hchannel hdeadline h
  exact ⟨step_keeps_link (I := ChannelLegal Config.params) (fun h => absurd rfl h) linkMove_channelLegal hchannel h,
    step_keeps_link (I := DeadlineLegal) (iff_of_false nofun nofun) linkMove_deadlineLegal hdeadline h⟩

/-! ## The telemetry buffers (10_state.md R48; 44_frames.md R243) -/

theorem telemetryLegal_reset (P : Params) : TelemetryLegal P .reset := ⟨rfl, rfl⟩

/-- The decoder replaces a buffer only by a validated frame of its tag. -/
theorem telemetryDecode_telemetryLegal {P : Params} {le : LinkEngine} (rx : Frame) (hl : TelemetryLegal P le) :
    TelemetryLegal P (le.telemetryDecode P rx) := by
  obtain ⟨hA, hB⟩ := hl
  rcases telemetryDecode_cases P rx le with ⟨hv, htag, e⟩ | ⟨hv, htag, e⟩ | e <;> rw [e]
  · exact ⟨⟨hv, htag⟩, hB⟩
  · exact ⟨hA, ⟨hv, htag⟩⟩
  · exact ⟨hA, hB⟩

theorem countPoll_telemetryLegal {P : Params} {le : LinkEngine} (hl : TelemetryLegal P le) :
    TelemetryLegal P le.countPoll := by
  obtain ⟨n, step, tphase, e⟩ := countPoll_frame le
  rw [e]
  exact hl

theorem linkMove_telemetryLegal {P : Params} {s : State} {i : Instr} {le : LinkEngine} {txns : List DriverTxn}
    {st : Status} {data : List Word} (hl : TelemetryLegal P s.le) (hm : LinkMove P s i le txns st data) :
    TelemetryLegal P le := by
  cases hm with
  | poll => exact countPoll_telemetryLegal (telemetryDecode_telemetryLegal _ hl)
  | pollBusy => exact countPoll_telemetryLegal hl
  | _ => exact hl

/-- Settles O50: only a poll writes the buffers, and it keeps them legal. -/
theorem telemetryStaysValidated : Obligations.TelemetryStaysValidated := by
  intro s t
  exact step_keeps_link (telemetryLegal_reset Config.params) linkMove_telemetryLegal

/-- Settles O11: the listed values by evaluation, the decoder's and the buffers' invariants by their lemmas. -/
theorem resetStateIsLegal : Obligations.ResetStateIsLegal :=
  ⟨rfl, rfl, rfl, sequencerLegal_reset, nofun, fun h => absurd rfl h, iff_of_false nofun nofun, decoderLegal_reset,
    telemetryLegal_reset Config.params, rfl⟩

end Sys2Proof.Machine
end

section
/-! PROOF of the rules of the whole machine: O34 (41_link_control.md R168), O44 (44_frames.md R245), O52 (the writers
that 10_state.md names), O53, O54, O55, O56, O57, O58. Each is read off the list of moves (`LinkMove`), one field or one
output at a time; the Pulse Decoder's registers are read off `exec_pd_cases`. -/
namespace Sys2Proof.Machine

/-! ## What a move writes -/

section
variable {P : Params} {s : State} {i : Instr} {le : LinkEngine} {txns : List DriverTxn} {st : Status}
  {data : List Word}

/-- The CommandSet has one writer (10_state.md R41). -/
theorem linkMove_cmd (hm : LinkMove P s i le txns st data) : le.cmd = s.le.cmd ∨ ∃ id v, i = .leSetCommand id v := by
  cases hm with
  | command id v cmd => exact .inr ⟨id, v, rfl⟩
  | pollBusy =>
    obtain ⟨n, step, tphase, e⟩ := countPoll_frame s.le
    exact .inl (e ▸ rfl)
  | poll =>
    obtain ⟨n, step, tphase, a, b, va, vb, e⟩ := poll_frame P s.inputs.draws.rx s.le
    exact .inl (e ▸ rfl)
  | _ => exact .inl rfl

/-- The telemetry buffers are written by a poll that finds a frame (10_state.md R48). -/
theorem linkMove_telem (hm : LinkMove P s i le txns st data) :
    (le.telemA = s.le.telemA ∧ le.telemB = s.le.telemB ∧ le.telemValidA = s.le.telemValidA ∧
      le.telemValidB = s.le.telemValidB) ∨
    (i = .leAdvance ∧ s.le.phase = .linked ∧ s.le.tphase = .pollReceive ∧ s.inputs.draws.busy = false) := by
  cases hm with
  | pollBusy =>
    obtain ⟨n, step, tphase, e⟩ := countPoll_frame s.le
    exact .inl (e ▸ ⟨rfl, rfl, rfl, rfl⟩)
  | poll hp ht hbusy => exact .inr ⟨rfl, hp, ht, hbusy⟩
  | _ => exact .inl ⟨rfl, rfl, rfl, rfl⟩

/-- Beside the CommandSet, the Link Engine is written by the bind and LE.ADVANCE alone. -/
theorem linkMove_sequencer (hm : LinkMove P s i le txns st data) :
    (i = .leBeginBind ∨ i = .leAdvance) ∨ ∃ cmd, le = { s.le with cmd := cmd } := by
  cases hm with
  | keep => exact .inr ⟨s.le.cmd, rfl⟩
  | command id v cmd => exact .inr ⟨cmd, rfl⟩
  | start hcause | abort hcause =>
    cases hcause with
    | beginBind => exact .inl (.inl rfl)
    | deadline => exact .inl (.inr rfl)
  | _ => exact .inl (.inr rfl)

/-- A move keeps the session, or starts the attempt that draws it (41_link_control.md R152, R153). -/
theorem linkMove_session (hm : LinkMove P s i le txns st data) :
    (le.sessionId = s.le.sessionId ∧ le.channel = s.le.channel) ∨
    (BindCause P s i data ∧ s.inputs.draws.initOk = true ∧ le = s.le.startAttempt P s.inputs.draws) := by
  cases hm with
  | start hcause hinit => exact .inr ⟨hcause, hinit, rfl⟩
  | pollBusy =>
    obtain ⟨n, step, tphase, e⟩ := countPoll_frame s.le
    exact .inl (e ▸ ⟨rfl, rfl⟩)
  | poll =>
    obtain ⟨n, step, tphase, a, b, va, vb, e⟩ := poll_frame P s.inputs.draws.rx s.le
    exact .inl (e ▸ ⟨rfl, rfl⟩)
  | _ => exact .inl ⟨rfl, rfl⟩

/-- The frame counter is kept, restarted with an attempt, or counted at a transmission (10_state.md R39). -/
theorem linkMove_frameCount (hm : LinkMove P s i le txns st data) :
    le.frameCount = s.le.frameCount ∨
    (s.inputs.draws.initOk = true ∧ le = s.le.startAttempt P s.inputs.draws) ∨
    (i = .leAdvance ∧ s.le.phase = .linked ∧ s.le.tphase = .transmit ∧
      le.frameCount = BitVec.ofNat 32 (min s.le.ordinal (2 ^ 32 - 1))) := by
  cases hm with
  | start hcause hinit => exact .inr (.inl ⟨hinit, rfl⟩)
  | transmit hp ht => exact .inr (.inr ⟨rfl, hp, ht, rfl⟩)
  | pollBusy =>
    obtain ⟨n, step, tphase, e⟩ := countPoll_frame s.le
    exact .inl (e ▸ rfl)
  | poll =>
    obtain ⟨n, step, tphase, a, b, va, vb, e⟩ := poll_frame P s.inputs.draws.rx s.le
    exact .inl (e ▸ rfl)
  | _ => exact .inl rfl

/-- From Linked a move stays in Linked or is of LE.BEGIN_BIND: the deadline only rebinds in Binding
(43_link_linked.md R209). -/
theorem linkMove_of_linked (hm : LinkMove P s i le txns st data) (hl : s.le.phase = .linked) :
    le.phase = .linked ∨ i = .leBeginBind := by
  cases hm with
  | start hcause | abort hcause =>
    cases hcause with
    | beginBind => exact .inr rfl
    | deadline hp => exact nomatch hp.symm.trans hl
  | pollBusy =>
    obtain ⟨n, step, tphase, e⟩ := countPoll_frame s.le
    exact .inl (e ▸ hl)
  | poll =>
    obtain ⟨n, step, tphase, a, b, va, vb, e⟩ := poll_frame P s.inputs.draws.rx s.le
    exact .inl (e ▸ hl)
  | link hp => exact nomatch hp.symm.trans hl
  | _ => exact .inl hl

/-- Outside Idle LE.ADVANCE answers OK with one delay word, but for a rebind whose Init fails
(41_link_control.md R168). -/
theorem linkMove_advance_response (hm : LinkMove P s .leAdvance le txns st data) (hp : s.le.phase ≠ .idle) :
    (st = .ok ∧ data.length = 1) ∨
    (st = .initFail ∧ data = [] ∧ s.le.phase = .binding ∧ s.inputs.draws.initOk = false ∧
      P.deadlinePolicy = .rebind ∧ deadlineFires s.inputs.nowMs s.le = true) := by
  cases hm with
  | keep hi => exact absurd rfl hi
  | start hcause => cases hcause; exact .inl ⟨rfl, rfl⟩
  | abort hcause hinit =>
    cases hcause with
    | deadline hp hpolicy hfired => exact .inr ⟨rfl, rfl, hp, hinit, hpolicy, hfired⟩
  | idle hidle => exact absurd hidle hp
  | _ => exact .inl ⟨rfl, rfl⟩

/-- The length of a response's data by its status (30_encoding.md R94, R95). -/
theorem linkMove_response (hm : LinkMove P s i le txns st data) :
    (st = .ok → data.length = okDataLength i) ∧
    (st ≠ .ok → data = [] ∨ (i = .leAdvance ∧ st = .idle ∧ data = [0#32])) := by
  cases hm with
  | keep hi hok herr => exact ⟨hok, fun h => .inl (herr h)⟩
  | start hcause => cases hcause <;> exact ⟨fun _ => rfl, fun h => absurd rfl h⟩
  | abort => exact ⟨nofun, fun _ => .inl rfl⟩
  | idle => exact ⟨nofun, fun _ => .inr ⟨rfl, rfl, rfl⟩⟩
  | _ => exact ⟨fun _ => rfl, fun h => absurd rfl h⟩

/-- A transmitted frame is a bind frame or a data frame, 16 bytes long. -/
theorem linkMove_writeFrame (hm : LinkMove P s i le txns st data) {f : Frame} {n : Nat} {ch : Byte}
    (hmem : DriverTxn.writeFrame f n ch ∈ txns) : n = 16 ∧ P.verify f = true := by
  obtain ⟨-, hbind, hdata⟩ := everyBuiltFrameValidates
  cases hm with
  | write =>
    simp only [List.mem_singleton, DriverTxn.writeFrame.injEq] at hmem
    obtain ⟨rfl, rfl, -⟩ := hmem
    exact ⟨rfl, hbind P _ _ _⟩
  | read => split_ifs at hmem <;> simp at hmem
  | transmit =>
    have hlast : DriverTxn.writeFrame f n ch =
        .writeFrame (dataFrame P s.le.cmd s.le.ordinal s.cfg) 16 (uplinkChannel P s.le) := by
      split_ifs at hmem <;> simpa using hmem
    simp only [DriverTxn.writeFrame.injEq] at hlast
    obtain ⟨rfl, rfl, -⟩ := hlast
    exact ⟨rfl, hdata P _ _ _⟩
  | _ => simp at hmem

/-- The driver is asked for its busy status and for a frame at most once each, and never put on standby. -/
theorem linkMove_transactions (hm : LinkMove P s i le txns st data) :
    txns.count .isBusy ≤ 1 ∧ txns.count (.readFrame 16) ≤ 1 ∧ DriverTxn.strobe .standby ∉ txns := by
  cases hm with
  | read => split_ifs <;> simp
  | transmit => split_ifs <;> simp
  | _ => simp

end

/-! ## What an instruction writes -/

/-- An edge writes no register of the binding, and not the published array (10_state.md R23, R28). -/
theorem onEdge_frame (us : Word) (pd : PulseDecoder) :
    (pd.onEdge us).enabled = pd.enabled ∧ (pd.onEdge us).line = pd.line ∧ (pd.onEdge us).polarity = pd.polarity ∧
    (pd.onEdge us).published = pd.published := by
  rcases onEdge_cases us pd with ⟨-, e⟩ | ⟨-, _, -, e⟩ | ⟨-, -, -, e⟩ | ⟨-, -, e⟩ <;> rw [e] <;>
    exact ⟨rfl, rfl, rfl, rfl⟩

/-- The Pulse Decoder's registers and their writers (10_state.md R23 to R29). -/
theorem exec_pd_writers {i : Instr} {s t : State} (h : exec i s = .next t) :
    (t.pd.enabled ≠ s.pd.enabled ∨ t.pd.line ≠ s.pd.line ∨ t.pd.polarity ≠ s.pd.polarity → ∃ l p, i = .pdSetup l p) ∧
    (t.pd.lastEdgeTime ≠ s.pd.lastEdgeTime ∨ t.pd.index ≠ s.pd.index ∨ t.pd.raw ≠ s.pd.raw ∨
      t.pd.frameValid ≠ s.pd.frameValid → ∃ l p, i = .pdEdge l p) ∧
    (t.pd.published ≠ s.pd.published → i = .pdRead) ∧
    (t.pd.fresh ≠ s.pd.fresh → i = .pdRead ∨ ∃ l p, i = .pdEdge l p) := by
  rcases exec_pd_cases h with e | ⟨l, p, a, b, hi, e⟩ | ⟨hi, e⟩ | ⟨l, p, hi, -, e⟩
  · simp [e]
  · exact ⟨fun _ => ⟨l, p, hi⟩, by simp [e], by simp [e], by simp [e]⟩
  · exact ⟨by simp [e], by simp [e], fun _ => hi, fun _ => .inl hi⟩
  · obtain ⟨henabled, hline, hpolarity, hpublished⟩ := onEdge_frame s.inputs.nowUs s.pd
    exact ⟨by simp [e, henabled, hline, hpolarity], fun _ => ⟨l, p, hi⟩, by simp [e, hpublished],
      fun _ => .inr ⟨l, p, hi⟩⟩

/-- PD.EDGE is the one instruction of its port. -/
theorem pdEdge_or_port_cmd (i : Instr) : (∃ l p, i = .pdEdge l p) ∨ i.port = .cmd := by
  cases i with
  | pdEdge l p => exact .inl ⟨l, p, rfl⟩
  | _ => exact .inr rfl

/-- An instruction keeps the Link Engine or is a command with its move. -/
theorem exec_le_cases {i : Instr} {s t : State} (h : exec i s = .next t) :
    t.le = s.le ∨ ∃ txns st data, LinkMove Config.params s i t.le txns st data := by
  rcases pdEdge_or_port_cmd i with ⟨l, p, rfl⟩ | hport
  · rw [exec_pdEdge_frame h]
    exact .inl rfl
  · obtain ⟨le, txns, st, data, hm, -, e⟩ := exec_linkMove hport h
    rw [e]
    exact .inr ⟨txns, st, data, hm⟩

/-- The configuration has one writer (10_state.md R43 to R46); the latched inputs and the stream have none. -/
theorem exec_frame {i : Instr} {s t : State} (h : exec i s = .next t) :
    (t.cfg ≠ s.cfg → ∃ id v, i = .leSetConfig id v) ∧ t.inputs = s.inputs ∧ t.events = s.events := by
  rcases pdEdge_or_port_cmd i with ⟨l, p, rfl⟩ | hport
  · rw [exec_pdEdge_frame h]
    exact ⟨fun hne => absurd rfl hne, rfl, rfl⟩
  · obtain ⟨le, txns, st, data, -, hcfg, e⟩ := exec_linkMove hport h
    refine ⟨fun hne => hcfg.resolve_left hne, ?_⟩
    rw [e]
    exact ⟨rfl, rfl⟩

/-- The Link Engine's registers and their writers (10_state.md R32 to R41, R48). -/
theorem exec_le_writers {i : Instr} {s t : State} (h : exec i s = .next t) :
    (t.le.cmd ≠ s.le.cmd → ∃ id v, i = .leSetCommand id v) ∧
    (t.le.telemA ≠ s.le.telemA ∨ t.le.telemB ≠ s.le.telemB ∨ t.le.telemValidA ≠ s.le.telemValidA ∨
      t.le.telemValidB ≠ s.le.telemValidB →
      i = .leAdvance ∧ s.le.phase = .linked ∧ s.le.tphase = .pollReceive ∧ s.inputs.draws.busy = false) ∧
    (t.le.phase ≠ s.le.phase ∨ t.le.step ≠ s.le.step ∨ t.le.awaitingWrite ≠ s.le.awaitingWrite ∨
      t.le.tphase ≠ s.le.tphase ∨ t.le.pollCount ≠ s.le.pollCount ∨ t.le.frameCount ≠ s.le.frameCount ∨
      t.le.deadline ≠ s.le.deadline ∨ t.le.deadlineActive ≠ s.le.deadlineActive ∨
      t.le.sessionId ≠ s.le.sessionId ∨ t.le.channel ≠ s.le.channel → i = .leBeginBind ∨ i = .leAdvance) := by
  rcases exec_le_cases h with e | ⟨txns, st, data, hm⟩
  · simp [e]
  · refine ⟨fun hne => (linkMove_cmd hm).resolve_left hne, fun hne => ?_, fun hne => ?_⟩
    · refine (linkMove_telem hm).resolve_left ?_
      rintro ⟨ha, hb, hva, hvb⟩
      simp [ha, hb, hva, hvb] at hne
    · refine (linkMove_sequencer hm).resolve_right ?_
      rintro ⟨cmd, e⟩
      simp [e] at hne

/-! ## The obligations -/

/-- Settles O52, unit by unit. -/
theorem everyRegisterHasItsWriter : Obligations.EveryRegisterHasItsWriter := by
  intro i s t h
  obtain ⟨hbinding, hcapture, hpublished, hfresh⟩ := exec_pd_writers h
  obtain ⟨hcmd, htelem, hsequencer⟩ := exec_le_writers h
  obtain ⟨hcfg, hinputs, hevents⟩ := exec_frame h
  exact ⟨hbinding, hcapture, hpublished, hfresh, hcmd, hcfg, htelem, hsequencer, hinputs, hevents⟩

/-- Settles O53: the session changes by the start of an attempt, whose cause is the bind or the fired deadline. -/
theorem sessionChangesOnlyAtABind : Obligations.SessionChangesOnlyAtABind := by
  intro i s t h hne
  rcases exec_le_cases h with e | ⟨txns, st, data, hm⟩
  · simp [e] at hne
  · rcases linkMove_session hm with ⟨hsid, hch⟩ | ⟨hcause, hinit, e⟩
    · simp [hsid, hch] at hne
    · rw [e]
      refine ⟨hinit, rfl, rfl, ?_⟩
      cases hcause with
      | beginBind => exact .inl rfl
      | deadline hp hpolicy hfired => exact .inr ⟨rfl, hp, hpolicy, hfired⟩

/-- Settles O54: no move of another instruction ends outside Linked. -/
theorem onlyBeginBindLeavesLinked : Obligations.OnlyBeginBindLeavesLinked := by
  intro i s t h hl hleft
  rcases exec_le_cases h with e | ⟨txns, st, data, hm⟩
  · exact absurd (e ▸ hl) hleft
  · exact (linkMove_of_linked hm hl).resolve_left hleft

theorem oddBindStep_succ {step : BitVec 4} (h : OddBindStep step) : (step + 1#4).toNat = step.toNat + 1 := by
  revert step; decide

theorem readStep_succ {step : BitVec 4} (h : step = 2#4 ∨ step = 4#4 ∨ step = 6#4) :
    (step + 1#4).toNat = step.toNat + 1 := by
  revert step; decide

/-- With no rebind no attempt starts in Binding. -/
theorem not_bindCause_advance {s : State} {data : List Word} (hd : NoRebind s) :
    ¬ BindCause Config.params s .leAdvance data := by
  intro hcause
  cases hcause with
  | deadline hp hpolicy hfired =>
    rcases hd with hd | hd
    · exact nomatch hd.symm.trans hfired
    · exact nomatch hd.symm.trans hpolicy

/-- Settles O55, by the moves of Binding. -/
theorem bindStepsMoveForwardOrBack : Obligations.BindStepsMoveForwardOrBack := by
  intro s t hp hd h
  obtain ⟨le, txns, st, data, hm, rfl⟩ := advance_linkMove h
  rw [State.answered_le]
  cases hm with
  | keep hi => exact absurd rfl hi
  | start hcause | abort hcause => exact absurd hcause (not_bindCause_advance hd)
  | write _ _ hstep => exact .inl ⟨hstep, hp, .inl rfl⟩
  | followUp _ _ hstep => exact .inl ⟨hstep, hp, .inr (oddBindStep_succ hstep)⟩
  | restart _ _ hstep => exact .inr (.inl ⟨hstep, hp, .inl rfl⟩)
  | read _ _ hstep => exact .inr (.inl ⟨hstep, hp, .inr (readStep_succ hstep)⟩)
  | fail _ _ hstep | retry _ _ hstep => exact .inr (.inr ⟨hstep, .inl ⟨hp, rfl⟩⟩)
  | link _ _ hstep => exact .inr (.inr ⟨hstep, .inr ⟨rfl, rfl⟩⟩)
  | idle hp' | transmit hp' | awaitBusy hp' | awaitDone hp' | pollBusy hp' | poll hp' => exact nomatch hp.symm.trans hp'

/-- A count that changes at a transmission goes up by one: at saturation it stays. -/
theorem frameCount_succ_of_ne {le : LinkEngine} {c : Word} (hc : c = BitVec.ofNat 32 (min le.ordinal (2 ^ 32 - 1)))
    (hne : c ≠ le.frameCount) : le.frameCount ≠ 0xFFFFFFFF#32 ∧ c.toNat = le.frameCount.toNat + 1 := by
  rw [ofNat_min_ordinal_eq] at hc
  split_ifs at hc with hfull
  · exact absurd (hc.trans hfull.symm) hne
  · refine ⟨hfull, ?_⟩
    rw [hc]
    bv_omega

/-- Settles O56: the counter changes at a start, to 0, or at a transmission, by one. -/
theorem frameCounterCountsAndSaturates : Obligations.FrameCounterCountsAndSaturates := by
  intro i s t h hne
  rcases exec_le_cases h with e | ⟨txns, st, data, hm⟩
  · exact absurd (congrArg _ e) hne
  · rcases linkMove_frameCount hm with hkept | ⟨hinit, e⟩ | ⟨hi, hp, ht, hcount⟩
    · exact absurd hkept hne
    · exact .inl (e ▸ ⟨rfl, rfl, hinit⟩)
    · exact .inr ⟨hi, hp, ht, frameCount_succ_of_ne hcount hne⟩

/-- Settles O57: a command's outputs are its move's, and PD.EDGE has none. -/
theorem responseDataLengths : Obligations.ResponseDataLengths := by
  refine ⟨fun i s t hport h => ?_, fun l p s t h => ?_⟩
  · obtain ⟨le, txns, st, data, hm, -, e⟩ := exec_linkMove hport h
    rw [e]
    exact ⟨txns, st, data, (List.append_assoc ..).symm, linkMove_response hm⟩
  · rw [exec_pdEdge_frame h]

/-- Settles O34: a legal state has a branch, and its move has one response. -/
theorem advanceAnswersInEveryLegalState : Obligations.AdvanceAnswersInEveryLegalState := by
  intro s hl
  obtain ⟨t, h⟩ := advance_answers (P := Config.params) hl
  obtain ⟨le, txns, st, data, hm, rfl⟩ := advance_linkMove h
  have hcmd : le.cmd = s.le.cmd := (linkMove_cmd hm).resolve_right nofun
  exact ⟨_, txns, st, data, h, (List.append_assoc ..).symm, rfl, rfl, hcmd, rfl, rfl, linkMove_advance_response hm⟩

/-- What a step appends to the log issues no transactions, or those of a move. -/
theorem step_outputs {s t : State} (h : step s = .next t) :
    ∃ out, t.log = s.log ++ out ∧ (transactionsOf out = [] ∨
      ∃ u i le st data, LinkMove Config.params u i le (transactionsOf out) st data) := by
  rcases step_link_cases h with ⟨-, out, hlog, hout⟩ | ⟨-, hlog⟩ | ⟨u, i, txns, st, data, -, hm, hlog⟩
  · exact ⟨out, hlog, .inl hout⟩
  · exact ⟨[], hlog.trans (List.append_nil _).symm, .inl rfl⟩
  · exact ⟨_, hlog, .inr ⟨u, i, t.le, st, data, (transactionsOf_answer txns st data).symm ▸ hm⟩⟩

theorem mem_transactionsOf {out : List Output} {x : DriverTxn} (h : .driver x ∈ out) : x ∈ transactionsOf out := by
  induction out with
  | nil => simp at h
  | cons o out ih =>
    rcases List.mem_cons.1 h with rfl | hrest
    · exact List.mem_cons_self
    · cases o with
      | driver y => exact List.mem_cons_of_mem _ (ih hrest)
      | response st data => exact ih hrest

/-- Settles O44: a step's transmissions are a move's. -/
theorem everyTransmittedFrameValidates : Obligations.EveryTransmittedFrameValidates := by
  intro s t f n ch h hmem
  obtain ⟨out, hlog, hout⟩ := step_outputs h
  rw [State.outputsAfter, hlog, List.drop_left] at hmem
  have htxn := mem_transactionsOf hmem
  rcases hout with hnone | ⟨u, i, le, st, data, hm⟩
  · rw [hnone] at htxn
    exact absurd htxn List.not_mem_nil
  · exact linkMove_writeFrame hm htxn

/-- Settles O58: what a step appends is a move's outputs, or holds no transaction. -/
theorem stepQueriesBusyAtMostOnce : Obligations.StepQueriesBusyAtMostOnce := by
  intro s t h
  obtain ⟨out, hlog, hout⟩ := step_outputs h
  refine ⟨out, hlog, ?_⟩
  rcases hout with hnone | ⟨u, i, le, st, data, hm⟩
  · rw [hnone]
    exact ⟨Nat.zero_le _, Nat.zero_le _, List.not_mem_nil⟩
  · exact linkMove_transactions hm

end Sys2Proof.Machine
end

section
/-! PROOF of O12, O14 (40_pulse_decoder.md R121, R128), O15, O16 (R122 to R130), O20 (41_link_control.md R158) and O40
(44_frames.md R236). A train of edges is a train of widths, counted from the edge before it, so a frame between two sync
edges is a fold over its widths: what the fold leaves in the index, in `frameValid` and in the slots is said once, by
induction, and S1 and S2 are read off. -/
namespace Sys2Proof.Machine

/-! ## PD.SETUP by the operand bytes (40_pulse_decoder.md R121) -/

theorem line?_decodeLine (c : Byte) :
    (decodeLine c).line? = if c = 0x00#8 ∨ c = 0x01#8 then some (c.extractLsb' 0 1) else none := by
  unfold decodeLine
  split_ifs with h0 h1 h2 <;> simp_all [LineField.line?]

theorem polarity?_decodePol (c : Byte) :
    (decodePol c).polarity? =
      if c = 0x01#8 ∨ c = 0x02#8 then some (if c = 0x01#8 then .rising else .falling) else none := by
  unfold decodePol
  split_ifs <;> simp_all [PolField.polarity?]

theorem exec_pdSetup_of_some {s : State} {l : LineField} {p : PolField} {a : BitVec 1} {b : Polarity}
    (hl : l.line? = some a) (hp : p.polarity? = some b) :
    exec (.pdSetup l p) s = .next { s with
      pd := { s.pd with line := a, polarity := b, enabled := true }
      log := s.log ++ [.response .ok []] } := by
  simp only [exec, execPdSetup, hl, hp]
  rfl

theorem exec_pdSetup_of_none {s : State} {l : LineField} {p : PolField} (h : l.line? = none ∨ p.polarity? = none) :
    exec (.pdSetup l p) s = .next { s with log := s.log ++ [.response .configError []] } := by
  rcases h with h | h
  · simp only [exec, execPdSetup, h]
    rfl
  · cases hl : l.line? <;> simp only [exec, execPdSetup, h, hl] <;> rfl

/-- Settles O12, by the two operand bytes. -/
theorem setupBindsOrRejects : Obligations.SetupBindsOrRejects := by
  intro s l p
  by_cases h : (l = 0x00#8 ∨ l = 0x01#8) ∧ (p = 0x01#8 ∨ p = 0x02#8)
  · rw [if_pos h]
    obtain ⟨hl, hp⟩ := h
    exact exec_pdSetup_of_some ((line?_decodeLine l).trans (if_pos hl)) ((polarity?_decodePol p).trans (if_pos hp))
  · rw [if_neg h]
    refine exec_pdSetup_of_none ?_
    rcases not_and_or.mp h with hl | hp
    · exact .inl ((line?_decodeLine l).trans (if_neg hl))
    · exact .inr ((polarity?_decodePol p).trans (if_neg hp))

/-! ## PD.READ (40_pulse_decoder.md R128) -/

theorem readStatusWord_eq (fresh valid : Bool) :
    bitAt 0 fresh ||| bitAt 1 valid =
      BitVec.ofNat 32 ((if fresh = true then 1 else 0) + (if valid = true then 2 else 0)) := by
  revert fresh valid; decide

/-- Settles O14: the two flags of the status word are its low bits. -/
theorem readPublishesRawAndClearsFresh : Obligations.ReadPublishesRawAndClearsFresh := by
  intro s
  rw [← readStatusWord_eq]
  rfl

/-! ## A train of edges, as a train of widths -/

/-- The edge that comes the given time after the last one. -/
def PulseDecoder.pulse (pd : PulseDecoder) (width : Word) : PulseDecoder := pd.onEdge (pd.lastEdgeTime + width)

theorem pulse_lastEdgeTime (pd : PulseDecoder) (width : Word) :
    (pd.pulse width).lastEdgeTime = pd.lastEdgeTime + width := by
  rcases onEdge_cases (pd.lastEdgeTime + width) pd with ⟨-, e⟩ | ⟨-, _, -, e⟩ | ⟨-, -, -, e⟩ | ⟨-, -, e⟩ <;>
    rw [PulseDecoder.pulse, e]

/-- An edge leaves the binding, so the next edge of the train qualifies as this one does. -/
theorem pulse_qualifies (pd : PulseDecoder) (width : Word) (l : LineField) (p : PolField) :
    (pd.pulse width).qualifies l p = pd.qualifies l p := by
  obtain ⟨henabled, hline, hpolarity, -⟩ := onEdge_frame (pd.lastEdgeTime + width) pd
  simp only [PulseDecoder.qualifies, PulseDecoder.pulse, henabled, hline, hpolarity]

/-- What an edge of a given width does, the width being the time since the last edge (40_pulse_decoder.md R123). -/
theorem pulse_cases (pd : PulseDecoder) (w : Word) :
    (2500 < w.toNat ∧ pd.pulse w =
      { pd with lastEdgeTime := pd.lastEdgeTime + w, fresh := pd.frameValid, frameValid := true, index := 0#4 }) ∨
    (w.toNat ≤ 2500 ∧ (800 ≤ w.toNat ∧ w.toNat ≤ 2200) ∧ ∃ h : pd.index.toNat < 8, pd.pulse w =
      { pd with
        lastEdgeTime := pd.lastEdgeTime + w
        raw := pd.raw.set pd.index.toNat (w.extractLsb' 0 16) h
        index := pd.index + 1#4 }) ∨
    (w.toNat ≤ 2500 ∧ ¬ (800 ≤ w.toNat ∧ w.toNat ≤ 2200) ∧ pd.index.toNat < 8 ∧ pd.pulse w =
      { pd with lastEdgeTime := pd.lastEdgeTime + w, frameValid := false, index := pd.index + 1#4 }) ∨
    (w.toNat ≤ 2500 ∧ 8 ≤ pd.index.toNat ∧ pd.pulse w = { pd with lastEdgeTime := pd.lastEdgeTime + w }) := by
  have hwidth : pd.lastEdgeTime + w - pd.lastEdgeTime = w := by rw [BitVec.add_comm, BitVec.add_sub_cancel]
  have hcases := onEdge_cases (pd.lastEdgeTime + w) pd
  rw [hwidth, isSyncWidth_iff, isSyncWidth_eq_false_iff, pulseInRange_iff, pulseInRange_eq_false_iff] at hcases
  rcases hcases with ⟨hw, e⟩ | ⟨hw, hi, hr, e⟩ | ⟨hw, hi, hr, e⟩ | ⟨hw, hi, e⟩
  · exact .inl ⟨hw, e⟩
  · exact .inr (.inl ⟨hw, hr, hi, e⟩)
  · exact .inr (.inr (.inl ⟨hw, hr, hi, e⟩))
  · exact .inr (.inr (.inr ⟨hw, hi, e⟩))

/-- A train of qualifying edges runs through its widths, and leaves the rest of the train. -/
theorem runsOn_pulseTrain {word : Word} {l : LineField} {p : PolField}
    (hd : decode .edge word = .instr (.pdEdge l p)) (ws more : List Word) {s : State} {rest : List Event}
    (hq : s.pd.qualifies l p = true) (he : s.events = pulseTrain word s.pd.lastEdgeTime (ws ++ more) ++ rest) :
    ∃ t : State, RunsOn ws.length s t ∧ t.pd = ws.foldl PulseDecoder.pulse s.pd ∧ t.pd.qualifies l p = true ∧
      t.log = s.log ∧ t.events = pulseTrain word t.pd.lastEdgeTime more ++ rest := by
  induction ws generalizing s with
  | nil => exact ⟨s, runsOn_zero.2 rfl, rfl, hq, rfl, he⟩
  | cons w ws ih =>
    have hstep := step_pulse he hd hq
    obtain ⟨t, hrun, hpd, htq, hlog, hevents⟩ := ih (s := { s with
        pd := s.pd.pulse w
        events := pulseTrain word (s.pd.lastEdgeTime + w) (ws ++ more) ++ rest
        inputs := { s.inputs with nowUs := s.pd.lastEdgeTime + w } })
      ((pulse_qualifies s.pd w l p).trans hq) (by rw [pulse_lastEdgeTime])
    exact ⟨t, (runsOn_succ hstep).2 hrun, hpd, htq, hlog, hevents⟩

/-! ## A frame of pulses -/

/-- A sync edge opens a frame: the index is 0 and the frame so far is valid (40_pulse_decoder.md R124). -/
theorem pulse_of_sync {pd : PulseDecoder} {w : Word} (h : 2500 < w.toNat) :
    pd.pulse w =
      { pd with lastEdgeTime := pd.lastEdgeTime + w, fresh := pd.frameValid, frameValid := true, index := 0#4 } := by
  rcases pulse_cases pd w with ⟨-, e⟩ | ⟨hw, -⟩ | ⟨hw, -⟩ | ⟨hw, -⟩
  · exact e
  all_goals omega

theorem toNat_index_succ {n : BitVec 4} (h : n.toNat < 8) : (n + 1#4).toNat = n.toNat + 1 := by bv_omega

/-- Pulses fill the slots one by one, up to eight (40_pulse_decoder.md R127, R129). -/
theorem foldl_pulse_index (ws : List Word) {pd : PulseDecoder} (hi : pd.index.toNat ≤ 8)
    (hws : ∀ w ∈ ws, w.toNat ≤ 2500) :
    (ws.foldl PulseDecoder.pulse pd).index.toNat = min (pd.index.toNat + ws.length) 8 := by
  induction ws generalizing pd with
  | nil => simpa using hi
  | cons w ws ih =>
    obtain ⟨hw, hws⟩ := List.forall_mem_cons.1 hws
    rw [List.foldl_cons, List.length_cons]
    rcases pulse_cases pd w with ⟨hsync, -⟩ | ⟨-, -, hslot, e⟩ | ⟨-, -, hslot, e⟩ | ⟨-, hfull, e⟩
    · omega
    · have hnext : (pd.pulse w).index.toNat = pd.index.toNat + 1 := by rw [e]; exact toNat_index_succ hslot
      rw [ih (by omega) hws, hnext]
      omega
    · have hnext : (pd.pulse w).index.toNat = pd.index.toNat + 1 := by rw [e]; exact toNat_index_succ hslot
      rw [ih (by omega) hws, hnext]
      omega
    · have hnext : (pd.pulse w).index = pd.index := by rw [e]
      rw [ih (hnext ▸ hi) hws, hnext]
      omega

/-- The frame stays valid while every pulse that fills a slot is in range (40_pulse_decoder.md R125, R130). -/
theorem foldl_pulse_frameValid (ws : List Word) {pd : PulseDecoder} (hi : pd.index.toNat ≤ 8)
    (hws : ∀ w ∈ ws, w.toNat ≤ 2500) :
    (ws.foldl PulseDecoder.pulse pd).frameValid = true ↔
      pd.frameValid = true ∧ ∀ w ∈ ws.take (8 - pd.index.toNat), 800 ≤ w.toNat ∧ w.toNat ≤ 2200 := by
  induction ws generalizing pd with
  | nil => simp
  | cons w ws ih =>
    obtain ⟨hw, hws⟩ := List.forall_mem_cons.1 hws
    rw [List.foldl_cons]
    rcases pulse_cases pd w with ⟨hsync, -⟩ | ⟨-, hrange, hslot, e⟩ | ⟨-, hrange, hslot, e⟩ | ⟨-, hfull, e⟩
    · omega
    · have hnext : (pd.pulse w).index.toNat = pd.index.toNat + 1 := by rw [e]; exact toNat_index_succ hslot
      have hvalid : (pd.pulse w).frameValid = pd.frameValid := by rw [e]
      obtain ⟨m, hm⟩ : ∃ m, 8 - pd.index.toNat = m + 1 := ⟨7 - pd.index.toNat, by omega⟩
      rw [ih (by omega) hws, hvalid, hnext, show 8 - (pd.index.toNat + 1) = m by omega, hm, List.take_succ_cons,
        List.forall_mem_cons]
      exact and_congr_right fun _ => (and_iff_right hrange).symm
    · have hnext : (pd.pulse w).index.toNat = pd.index.toNat + 1 := by rw [e]; exact toNat_index_succ hslot
      have hvalid : (pd.pulse w).frameValid = false := by rw [e]
      obtain ⟨m, hm⟩ : ∃ m, 8 - pd.index.toNat = m + 1 := ⟨7 - pd.index.toNat, by omega⟩
      rw [ih (by omega) hws, hvalid, hm, List.take_succ_cons, List.forall_mem_cons]
      exact iff_of_false (by simp) fun h => hrange h.2.1
    · have hnext : (pd.pulse w).index = pd.index := by rw [e]
      have hvalid : (pd.pulse w).frameValid = pd.frameValid := by rw [e]
      rw [ih (hnext ▸ hi) hws, hvalid, hnext, show 8 - pd.index.toNat = 0 by omega, List.take_zero, List.take_zero]

theorem take_succ_set {α : Type} {l : List α} {n : Nat} {a : α} (h : n < l.length) :
    (l.set n a).take (n + 1) = l.take n ++ [a] := by
  rw [List.set_eq_take_append_cons_drop, if_pos h, List.take_append]
  simp [Nat.le_of_lt h]

/-- Pulses in range are captured in order, from the slot at the index on (40_pulse_decoder.md R125). -/
theorem foldl_pulse_raw (ws : List Word) {pd : PulseDecoder} (hi : pd.index.toNat + ws.length ≤ 8)
    (hws : ∀ w ∈ ws, 800 ≤ w.toNat ∧ w.toNat ≤ 2200) :
    (ws.foldl PulseDecoder.pulse pd).raw.toList.take (pd.index.toNat + ws.length) =
      pd.raw.toList.take pd.index.toNat ++ ws.map (fun w => w.setWidth 16) := by
  induction ws generalizing pd with
  | nil => simp
  | cons w ws ih =>
    obtain ⟨hw, hws⟩ := List.forall_mem_cons.1 hws
    rw [List.length_cons] at hi
    rw [List.foldl_cons, List.length_cons, List.map_cons]
    rcases pulse_cases pd w with ⟨hsync, -⟩ | ⟨-, -, hslot, e⟩ | ⟨-, hrange, -⟩ | ⟨-, hfull, -⟩
    · omega
    · have hnext : (pd.pulse w).index.toNat = pd.index.toNat + 1 := by rw [e]; exact toNat_index_succ hslot
      have hraw : (pd.pulse w).raw = pd.raw.set pd.index.toNat (w.extractLsb' 0 16) hslot := by rw [e]
      have hih := ih (pd := pd.pulse w) (by omega) hws
      rw [hnext, hraw, Vector.toList_set, take_succ_set (by simpa using hslot), Nat.add_assoc, Nat.add_comm 1] at hih
      rw [hih, List.append_assoc, BitVec.setWidth_eq_extractLsb' (by omega)]
      rfl
    · exact absurd hw hrange
    · omega

/-! ## S1 and S2 -/

/-- The opening edge and the pulses after it are one train. -/
theorem pulseTrain_cons_edge (word t0 last : Word) (ws : List Word) :
    .edge word t0 :: pulseTrain word t0 ws = pulseTrain word last ((t0 - last) :: ws) := by
  rw [pulseTrain, BitVec.add_comm, BitVec.sub_add_cancel]

/-- A frame: the run up to its last pulse, and the run that also closes it. -/
theorem runsOn_frame {s : State} {word t0 gap : Word} {ws : List Word} {l : LineField} {p : PolField}
    {rest : List Event} (hd : decode .edge word = .instr (.pdEdge l p)) (hq : s.pd.qualifies l p = true)
    (he : s.events = .edge word t0 :: pulseTrain word t0 (ws ++ [gap]) ++ rest) :
    ∃ u t : State, RunsOn (ws.length + 1) s u ∧
      u.pd = ws.foldl PulseDecoder.pulse (s.pd.pulse (t0 - s.pd.lastEdgeTime)) ∧ u.log = s.log ∧
      RunsOn (ws.length + 2) s t ∧ t.pd = u.pd.pulse gap ∧ t.log = s.log ∧ t.events = rest := by
  rw [pulseTrain_cons_edge word t0 s.pd.lastEdgeTime] at he
  obtain ⟨u, hu, hupd, huq, hulog, hue⟩ := runsOn_pulseTrain hd ((t0 - s.pd.lastEdgeTime) :: ws) [gap] hq he
  obtain ⟨t, ht, htpd, -, htlog, hte⟩ := runsOn_pulseTrain hd [gap] [] huq hue
  have hrun : RunsOn (ws.length + 2) s t := by
    rw [show ws.length + 2 = 1 + (ws.length + 1) by omega]
    exact runsOn_trans hu ht
  exact ⟨u, t, hu, hupd, hulog, hrun, htpd, htlog.trans hulog, hte⟩

/-- An opened frame has filled no slot and is valid so far. -/
theorem pulse_of_sync_open {pd : PulseDecoder} {w : Word} (h : 2500 < w.toNat) :
    (pd.pulse w).index.toNat = 0 ∧ (pd.pulse w).frameValid = true := by
  rw [pulse_of_sync h]
  exact ⟨rfl, rfl⟩

/-- Settles O16: the pulses fold over the opened frame, and the closing edge reports it. -/
theorem freshReportsTheFirstEightPulses : Obligations.FreshReportsTheFirstEightPulses := by
  intro s word t0 gap ws l p rest hd hq hopen hws hgap he
  obtain ⟨u, t, hu, hupd, hulog, ht, htpd, htlog, hte⟩ := runsOn_frame hd hq he
  obtain ⟨hindex, hvalid⟩ := pulse_of_sync_open (pd := s.pd) hopen
  refine ⟨⟨u, hu, ?_, hulog⟩, t, ht, ?_, ?_, ?_, htlog, hte⟩
  · rw [hupd, foldl_pulse_index ws (by omega) hws, hindex, Nat.zero_add]
  · have hfresh : t.pd.fresh = u.pd.frameValid := by rw [htpd, pulse_of_sync hgap]
    rw [hfresh, hupd, foldl_pulse_frameValid ws (by omega) hws, hindex]
    exact and_iff_right hvalid
  · rw [htpd, pulse_of_sync hgap]
  · rw [htpd, pulse_of_sync hgap]

/-- A frame of eight pulses in range leaves their widths in the slots, in order, and is valid. -/
theorem foldl_pulse_of_eight {pd : PulseDecoder} {ws : List Word} (hindex : pd.index.toNat = 0)
    (hvalid : pd.frameValid = true) (hlen : ws.length = 8) (hws : ∀ w ∈ ws, 800 ≤ w.toNat ∧ w.toNat ≤ 2200) :
    (ws.foldl PulseDecoder.pulse pd).raw.toList = ws.map (fun w => w.setWidth 16) ∧
    (ws.foldl PulseDecoder.pulse pd).frameValid = true := by
  constructor
  · have hraw := foldl_pulse_raw ws (pd := pd) (by omega) hws
    rw [hindex, hlen, List.take_zero, List.nil_append, List.take_of_length_le (by simp)] at hraw
    exact hraw
  · have hle : ∀ w ∈ ws, w.toNat ≤ 2500 := fun w hw => by have := hws w hw; omega
    exact (foldl_pulse_frameValid ws (by omega) hle).2 ⟨hvalid, fun w hw => hws w (List.mem_of_mem_take hw)⟩

/-- The 16 captured bits of a width in range, read back as a response word, are the width. -/
theorem map_captured_eq {ws : List Word} (hws : ∀ w ∈ ws, 800 ≤ w.toNat ∧ w.toNat ≤ 2200) :
    (ws.map fun w => w.setWidth 16).map (fun v => v.setWidth 32) = ws := by
  rw [List.map_map]
  refine (List.map_congr_left fun w hw => ?_).trans (List.map_id ws)
  have := hws w hw
  apply BitVec.eq_of_toNat_eq
  simp only [Function.comp_apply, BitVec.toNat_setWidth, id]
  omega

/-- A PD.READ waiting on the stream, one step. -/
theorem step_pdRead {s : State} {us ms : Word} {d : Draws} {rest : List Event}
    (he : s.events = .cmd (encode .pdRead) us ms d :: rest) :
    ∃ t, step s = .next t ∧
      t.log = s.log ++ [.response .ok (BitVec.ofNat 32
        ((if s.pd.fresh = true then 1 else 0) + (if s.pd.frameValid = true then 2 else 0)) ::
          s.pd.raw.toList.map (fun v => v.setWidth 32))] ∧
      t.pd.published = s.pd.raw ∧ t.pd.fresh = false ∧ t.events = rest :=
  ⟨_, (step_cmd he rfl).trans (readPublishesRawAndClearsFresh _), rfl, rfl, rfl, rfl⟩

/-- Settles O15: the closed frame holds the eight widths, and PD.READ answers and publishes them. -/
theorem eightValidPulsesReachTheReader : Obligations.EightValidPulsesReachTheReader := by
  intro s word t0 gap us ms d ws l p rest hd hq hopen hlen hws hgap he
  rw [List.append_assoc] at he
  obtain ⟨u, t, -, hupd, -, ht, htpd, htlog, hte⟩ := runsOn_frame hd hq he
  obtain ⟨hindex, hvalid⟩ := pulse_of_sync_open (pd := s.pd) hopen
  obtain ⟨hraw, hframe⟩ := foldl_pulse_of_eight hindex hvalid hlen hws
  have hfresh : t.pd.fresh = true := by rw [htpd, pulse_of_sync hgap, hupd]; exact hframe
  have hreport : t.pd.frameValid = true := by rw [htpd, pulse_of_sync hgap]
  have hslots : t.pd.raw.toList = ws.map fun w => w.setWidth 16 := by rw [htpd, pulse_of_sync hgap, hupd]; exact hraw
  obtain ⟨v, hread, hvlog, hvpublished, hvfresh, hve⟩ := step_pdRead hte
  have hrun : RunsOn (1 + (ws.length + 2)) s v := runsOn_trans ht ((runsOn_succ hread).2 (runsOn_zero.2 rfl))
  rw [hlen] at hrun
  refine ⟨v, hrun, ?_, hvpublished ▸ hslots, hvfresh, hve⟩
  rw [hvlog, htlog, hfresh, hreport, hslots, map_captured_eq hws]
  rfl

/-! ## The throttle floor (41_link_control.md R158) and the flags byte (44_frames.md R236) -/

theorem thrFloor_eq (P : Params) : P.thrFloor = 1000 + P.thrFloorFree % 1000 := rfl

/-- Settles O20: the floor is IN_MIN plus a remainder, and the rescale clamps below it. -/
theorem throttleFloorIsLegalAndMapsToZero : Obligations.ThrottleFloorIsLegalAndMapsToZero := by
  have hrange (P : Params) : 1000 ≤ P.thrFloor ∧ P.thrFloor < 2000 := by
    rw [thrFloor_eq]
    omega
  refine ⟨hrange, fun n hlo hhi => ⟨{ Config.params with thrFloorFree := n - 1000 }, ?_⟩, fun P v hv => ?_⟩
  · show 1000 + (n - 1000) % 1000 = n
    omega
  · have hfloor : P.thrFloor < inMax := (hrange P).2
    rw [scaleByte, scale_of_le_lo hv hfloor]

/-- Settles O40, by the grace count. -/
theorem flagsFollowTogglesAfterGrace : Obligations.FlagsFollowTogglesAfterGrace :=
  fun P cmd _ => ⟨fun h => if_pos h, flagsByte_of_grace_lt P cmd⟩

end Sys2Proof.Machine
end

section
/-! PROOF of O25, O26 (42_link_binding.md R182, R183), O29 (R181), O30 (R180), O32 and O33 (43_link_linked.md R205 to
R207): which branch LE.ADVANCE takes, and what the branch's equation in Laws/Ops says of it. -/
namespace Sys2Proof.Machine

/-! ## Binding -/

/-- The write steps of the case table, by `awaitingWrite` (42_link_binding.md R180). -/
theorem bindBranch_of_oddStep {step : BitVec 4} (h : OddBindStep step) :
    bindBranch step false = some .write ∧ bindBranch step true = some .followUp := by
  revert step; decide

theorem exec_leAdvance_of_writeStep {s : State} (hp : s.le.phase = .binding) (haw : s.le.awaitingWrite = false)
    (hstep : OddBindStep s.le.step) (hd : NoRebind s) : exec .leAdvance s = .next (bindWrite Config.params s) :=
  advance_of_branch hp hd (b := .write) (haw ▸ (bindBranch_of_oddStep hstep).1)

theorem exec_leAdvance_of_followUpStep {s : State} (hp : s.le.phase = .binding) (haw : s.le.awaitingWrite = true)
    (hstep : OddBindStep s.le.step) (hd : NoRebind s) : exec .leAdvance s = .next (bindFollowUp Config.params s) :=
  advance_of_branch hp hd (b := .followUp) (haw ▸ (bindBranch_of_oddStep hstep).2)

/-- The tags of the four write steps (44_frames.md R234). -/
theorem bindTag_of_oddStep (P : Params) {step : BitVec 4} (h : OddBindStep step) :
    bindTag P step = if step = 1#4 then 0x01#8 else if step = 3#4 then P.bindTag3
      else if step = 5#4 then 0x01#8 else 0x09#8 := by
  rcases h with rfl | rfl | rfl | rfl <;> rfl

/-- Settles O25: the branch, its equation, and the tag by the step. -/
theorem bindWriteSendsTheTaggedFrame : Obligations.BindWriteSendsTheTaggedFrame := by
  intro s hp haw hstep hd
  rw [exec_leAdvance_of_writeStep hp haw hstep hd, bindWrite_eq, bindTag_of_oddStep _ hstep]

/-- Settles O26: the branch and its equation. -/
theorem bindFollowUpSwitchesToReceive : Obligations.BindFollowUpSwitchesToReceive := by
  intro s hp haw hstep hd
  rw [exec_leAdvance_of_followUpStep hp haw hstep hd, bindFollowUp_eq]

/-- What R180's table does not list. -/
theorem bindBranch_eq_none {step : BitVec 4} {aw : Bool}
    (h : (step = 0#4 ∨ 9 ≤ step.toNat) ∨ (aw = true ∧ ¬ OddBindStep step)) : bindBranch step aw = none := by
  revert step aw; decide

theorem advance_of_no_branch {P : Params} {s : State} (hp : s.le.phase = .binding)
    (hd : deadlineFires s.inputs.nowMs s.le = false ∨ P.deadlinePolicy = .ignore)
    (hb : bindBranch s.le.step s.le.awaitingWrite = none) : advance P s = .fault .illegalSequencer := by
  have h : ¬ (deadlineFires s.inputs.nowMs s.le = true ∧ P.deadlinePolicy = .rebind) := by
    rcases hd with h | h <;> simp [h]
  simp only [advance, hp, advanceBinding, h, if_false]
  rw [hb]

/-- Settles O30: with no rebind the case table decides, and it has no entry. -/
theorem unlistedBindCombinationStops : Obligations.UnlistedBindCombinationStops :=
  fun _ hp hd h => advance_of_no_branch hp hd (bindBranch_eq_none h)

/-! ## The forced-rebind deadline (42_link_binding.md R181) -/

theorem deadlineFires_iff (nowMs : Word) (le : LinkEngine) :
    deadlineFires nowMs le = true ↔
      le.deadlineActive = true ∧ (nowMs.toNat + 2 ^ 32 - le.deadline.toNat) % 2 ^ 32 < 2 ^ 31 := by
  rw [deadlineFires, Bool.and_eq_true, decide_eq_true_iff, toNat_sub_eq_mod]

theorem advance_of_rebind {P : Params} {s : State} (hp : s.le.phase = .binding) (hpolicy : P.deadlinePolicy = .rebind)
    (hfired : deadlineFires s.inputs.nowMs s.le = true) : advance P s = .next (s.beginBind P [tRebind]) := by
  simp only [advance, hp, advanceBinding, hfired, hpolicy, and_self, if_true]

/-- Settles O29: under IGNORE every branch of the table goes on; under REBIND a fired deadline begins a bind. -/
theorem expiredDeadlineFollowsThePolicy : Obligations.ExpiredDeadlineFollowsThePolicy := by
  refine ⟨deadlineFires_iff, fun _ => rfl, fun P s hpolicy hp => ⟨?write, ?followUp, ?read, ?resolve⟩, ?rebind⟩
  case write =>
    intro hstep haw
    exact advance_of_branch hp (.inr hpolicy) (b := .write) (haw ▸ (bindBranch_of_oddStep hstep).1)
  case followUp =>
    intro hstep haw
    exact advance_of_branch hp (.inr hpolicy) (b := .followUp) (haw ▸ (bindBranch_of_oddStep hstep).2)
  case read =>
    intro hstep haw
    exact advance_of_branch hp (.inr hpolicy) (b := .read) (haw ▸ bindBranch_of_readStep hstep)
  case resolve =>
    intro hstep haw
    exact advance_of_branch hp (.inr hpolicy) (b := .resolve) (by rw [haw, hstep]; rfl)
  case rebind =>
    intro P s hpolicy hp hfired
    rw [advance_of_rebind hp hpolicy hfired]
    split_ifs with hinit
    · rw [beginBind_of_initOk hinit]
      rfl
    · rw [beginBind_of_initFail (Bool.eq_false_of_not_eq_true hinit)]
      rfl

/-! ## Linked -/

/-- Settles O32, by the driver's busy answer. -/
theorem linkAwaitPollsUntilReady : Obligations.LinkAwaitPollsUntilReady := by
  intro s hp ht
  refine (advance_of_await hp ht).trans ?_
  split_ifs with hbusy
  · rw [linkAwait_of_busy hbusy]
  · rw [linkAwait_of_ready (Bool.eq_false_of_not_eq_true hbusy)]

/-- Counting a poll, on the register: the seventh closes the sub-step (43_link_linked.md R206, R207). -/
theorem countPoll_eq_ite (le : LinkEngine) :
    le.countPoll =
      if le.pollCount = 6#3 then
        { le with pollCount := 7#3, step := BitVec.ofNat 4 (le.step.toNat % 5 + 1), tphase := .transmit }
      else { le with pollCount := le.pollCount + 1#3 } := by
  rcases countPoll_cases le with ⟨hlast, e⟩ | ⟨hmore, e⟩
  · rw [e, if_pos (by bv_omega)]
  · rw [e, if_neg (by rintro h; simp [h] at hmore), BitVec.ofNat_add, BitVec.ofNat_toNat, BitVec.setWidth_eq]

theorem telemetryDecode_counters (P : Params) (rx : Frame) (le : LinkEngine) :
    (le.telemetryDecode P rx).pollCount = le.pollCount ∧ (le.telemetryDecode P rx).step = le.step := by
  obtain ⟨a, b, va, vb, e⟩ := telemetryDecode_frame P rx le
  rw [e]
  exact ⟨rfl, rfl⟩

/-- Settles O33, by the driver's busy answer; what a frame brings does not touch the count. -/
theorem linkPollCountsAndDecodes : Obligations.LinkPollCountsAndDecodes := by
  intro s hp ht _ le'
  refine (advance_of_poll hp ht).trans ?_
  by_cases hbusy : s.inputs.draws.busy = true
  · have hle : le' = s.le := if_pos hbusy
    rw [linkPoll_of_busy hbusy, countPoll_eq_ite, if_pos hbusy, hle, List.append_assoc]
    rfl
  · have hle : le' = s.le.telemetryDecode Config.params s.inputs.draws.rx := if_neg hbusy
    obtain ⟨hcount, hstep⟩ := telemetryDecode_counters Config.params s.inputs.draws.rx s.le
    rw [linkPoll_of_ready (Bool.eq_false_of_not_eq_true hbusy), countPoll_eq_ite, if_neg hbusy, hle, hcount,
      hstep, List.append_assoc]
    rfl

end Sys2Proof.Machine
end

section
/-! PROOF of O35, O36 (42_link_binding.md R189, R192) and O37 (43_link_linked.md R208, R210). A run of LE.ADVANCE
commands is an `AdvanceRun`: its steps, its transmissions and its requested delays are counted, and runs in a row add
up. Each claim is then a chain of single commands, whose Link Engines are known exactly (Binding) or in the fields
that decide the next command (Linked). -/
namespace Sys2Proof.Machine

/-! ## Runs of LE.ADVANCE -/

theorem responsesOf_append (x y : List Output) : responsesOf (x ++ y) = responsesOf x ++ responsesOf y := by
  induction x with
  | nil => rfl
  | cons o x ih =>
    cases o with
    | driver t => exact ih
    | response st data => exact congrArg ((st, data) :: ·) ih

theorem transactionsOf_append (x y : List Output) :
    transactionsOf (x ++ y) = transactionsOf x ++ transactionsOf y := by
  induction x with
  | nil => rfl
  | cons o x ih =>
    cases o with
    | driver t => exact congrArg (t :: ·) ih
    | response st data => exact ih

theorem responsesOf_answer (txns : List DriverTxn) (st : Status) (data : List Word) :
    responsesOf (txns.map .driver ++ [.response st data]) = [(st, data)] := by
  induction txns with
  | nil => rfl
  | cons t txns ih => exact ih

theorem requestedDelay_append (x y : List (Status × List Word)) :
    requestedDelay (x ++ y) = requestedDelay x + requestedDelay y := by
  induction x with
  | nil => exact (Nat.zero_add _).symm
  | cons r x ih =>
    obtain ⟨st, data⟩ := r
    cases st with
    | ok =>
      cases data with
      | nil => exact ih
      | cons d ds => exact (congrArg (d.toNat + ·) ih).trans (Nat.add_assoc ..).symm
    | _ => exact ih

/-- `n` commands take `s` to `t`, in the phase of `s` until the last has run: one response each, asking for `delay` µs
in all, and `writes` transmissions. The Pulse Decoder and the configuration are left alone. -/
structure AdvanceRun (n writes delay : Nat) (s t : State) : Prop where
  run : RunsOn n s t
  phase : ∀ k < n, ∃ u : State, RunsOn k s u ∧ u.le.phase = s.le.phase
  pd : t.pd = s.pd
  cfg : t.cfg = s.cfg
  log : ∃ out, t.log = s.log ++ out ∧ (responsesOf out).length = n ∧ requestedDelay (responsesOf out) = delay ∧
    (transactionsOf out).countP DriverTxn.isWriteFrame = writes

theorem AdvanceRun.refl (s : State) : AdvanceRun 0 0 0 s s :=
  ⟨runsOn_zero.2 rfl, nofun, rfl, rfl, [], (List.append_nil _).symm, rfl, rfl, rfl⟩

theorem AdvanceRun.trans {m n v w d e : Nat} {s u t : State} (h : AdvanceRun m v d s u) (h' : AdvanceRun n w e u t)
    (hphase : u.le.phase = s.le.phase) : AdvanceRun (m + n) (v + w) (d + e) s t := by
  obtain ⟨x, hx, hxlen, hxdelay, hxwrites⟩ := h.log
  obtain ⟨y, hy, hylen, hydelay, hywrites⟩ := h'.log
  refine ⟨Nat.add_comm n m ▸ runsOn_trans h.run h'.run, fun k hk => ?_, h'.pd.trans h.pd, h'.cfg.trans h.cfg,
    x ++ y, by rw [hy, hx, List.append_assoc], ?_, ?_, ?_⟩
  · by_cases hkm : k < m
    · exact h.phase k hkm
    · obtain ⟨u', hu', hp⟩ := h'.phase (k - m) (by omega)
      exact ⟨u', Nat.sub_add_cancel (Nat.le_of_not_lt hkm) ▸ runsOn_trans h.run hu', hp.trans hphase⟩
  · rw [responsesOf_append, List.length_append, hxlen, hylen]
  · rw [responsesOf_append, requestedDelay_append, hxdelay, hydelay]
  · rw [transactionsOf_append, List.countP_append, hxwrites, hywrites]

/-- `s` with its first command taken off the stream and latched. -/
def State.fed (s : State) (a : Inputs) (es : List Event) : State := { s with events := es, inputs := a }

/-- A command whose LE.ADVANCE answers OK with one delay word is a run of one. -/
theorem advanceRun_single {s : State} {a : Inputs} {as : List Inputs} {rest : List Event} {le : LinkEngine}
    {d : Word} {w : Nat} (txns : List DriverTxn) (he : s.events = advanceTrain (a :: as) ++ rest)
    (hw : txns.countP DriverTxn.isWriteFrame = w)
    (h : advance Config.params (s.fed a (advanceTrain as ++ rest)) =
      .next ((s.fed a (advanceTrain as ++ rest)).answered le txns .ok [d])) :
    ∃ t : State, AdvanceRun 1 w d.toNat s t ∧ t.le = le ∧ t.events = advanceTrain as ++ rest := by
  refine ⟨_, ⟨(runsOn_succ ((step_advance he).trans h)).2 (runsOn_zero.2 rfl), fun k hk => ?_, rfl, rfl,
    txns.map .driver ++ [.response .ok [d]], rfl, ?_, ?_, ?_⟩, rfl, rfl⟩
  · obtain rfl : k = 0 := by omega
    exact ⟨s, runsOn_zero.2 rfl, rfl⟩
  · rw [responsesOf_answer]
    rfl
  · rw [responsesOf_answer]
    rfl
  · rw [transactionsOf_answer, hw]

/-! ## The commands of a handshake, before the deadline -/

section
variable {s : State} {a : Inputs} {as : List Inputs} {rest : List Event}

theorem advanceRun_write (he : s.events = advanceTrain (a :: as) ++ rest) (hp : s.le.phase = .binding)
    (haw : s.le.awaitingWrite = false) (hstep : OddBindStep s.le.step) (hd : deadlineFires a.nowMs s.le = false) :
    ∃ t : State, AdvanceRun 1 1 Config.params.tBindWrite.toNat s t ∧ t.le = { s.le with awaitingWrite := true } ∧
      t.events = advanceTrain as ++ rest := by
  exact advanceRun_single [.writeFrame _ 16 _] he rfl
    ((exec_leAdvance_of_writeStep (s := s.fed a (advanceTrain as ++ rest)) hp haw hstep (.inl hd)).trans
      (congrArg Host.Outcome.next (bindWrite_eq ..)))

theorem advanceRun_followUp (he : s.events = advanceTrain (a :: as) ++ rest) (hp : s.le.phase = .binding)
    (haw : s.le.awaitingWrite = true) (hstep : OddBindStep s.le.step) (hd : deadlineFires a.nowMs s.le = false) :
    ∃ t : State, AdvanceRun 1 0 Config.params.tBindRx.toNat s t ∧
      t.le = { s.le with awaitingWrite := false, step := s.le.step + 1#4 } ∧ t.events = advanceTrain as ++ rest := by
  exact advanceRun_single [.strobe .rx] he rfl
    ((exec_leAdvance_of_followUpStep (s := s.fed a (advanceTrain as ++ rest)) hp haw hstep (.inl hd)).trans
      (congrArg Host.Outcome.next (bindFollowUp_eq ..)))

theorem advanceRun_restart (he : s.events = advanceTrain (a :: as) ++ rest) (hp : s.le.phase = .binding)
    (haw : s.le.awaitingWrite = false) (hstep : s.le.step = 2#4 ∨ s.le.step = 4#4 ∨ s.le.step = 6#4)
    (hbusy : a.draws.busy = true) (hd : deadlineFires a.nowMs s.le = false) :
    ∃ t : State, AdvanceRun 1 0 Config.params.tBindRestart.toNat s t ∧
      t.le = { s.le with step := 1#4, awaitingWrite := false } ∧ t.events = advanceTrain as ++ rest := by
  exact advanceRun_single [.isBusy] he rfl
    ((exec_leAdvance_of_readStep (s := s.fed a (advanceTrain as ++ rest)) hp haw hstep (.inl hd)).trans
      (congrArg Host.Outcome.next (bindRead_of_busy hbusy)))

theorem advanceRun_read (he : s.events = advanceTrain (a :: as) ++ rest) (hp : s.le.phase = .binding)
    (haw : s.le.awaitingWrite = false) (hstep : s.le.step = 2#4 ∨ s.le.step = 4#4 ∨ s.le.step = 6#4)
    (hbusy : a.draws.busy = false) (hd : deadlineFires a.nowMs s.le = false) :
    ∃ t : State, AdvanceRun 1 0 Config.params.tBindRead.toNat s t ∧ t.le = { s.le with step := s.le.step + 1#4 } ∧
      t.events = advanceTrain as ++ rest := by
  exact advanceRun_single
    ([.isBusy, .readFrame 16] ++ if s.le.step = 4#4 then [.writeId (linkAddress a.draws.rx)] else []) he
    (by split_ifs <;> rfl)
    ((exec_leAdvance_of_readStep (s := s.fed a (advanceTrain as ++ rest)) hp haw hstep (.inl hd)).trans
      (congrArg Host.Outcome.next (bindRead_eq_answered hbusy)))

theorem advanceRun_link (he : s.events = advanceTrain (a :: as) ++ rest) (hp : s.le.phase = .binding)
    (haw : s.le.awaitingWrite = false) (hstep : s.le.step = 8#4) (hbusy : a.draws.busy = false)
    (hrx : a.draws.rx[1] = 9#8) (hd : deadlineFires a.nowMs s.le = false) :
    ∃ t : State, AdvanceRun 1 0 Config.params.tLinkSettle.toNat s t ∧ t.le = s.le.enterLinked ∧
      t.events = advanceTrain as ++ rest := by
  exact advanceRun_single [.isBusy, .readFrame 16, .writeReg _ _] he rfl
    ((exec_leAdvance_of_resolveStep (s := s.fed a (advanceTrain as ++ rest)) hp haw hstep (.inl hd)).trans
      (congrArg Host.Outcome.next (bindResolve_of_link (.inr ⟨hbusy, hrx⟩))))

end

/-- A write and its follow-up take a write step to the read step after it. -/
theorem advanceRun_send {s : State} {a b : Inputs} {as : List Inputs} {rest : List Event}
    (he : s.events = advanceTrain (a :: b :: as) ++ rest) (hp : s.le.phase = .binding)
    (haw : s.le.awaitingWrite = false) (hstep : OddBindStep s.le.step) (ha : deadlineFires a.nowMs s.le = false)
    (hb : deadlineFires b.nowMs s.le = false) :
    ∃ t : State, AdvanceRun 2 1 (Config.params.tBindWrite.toNat + Config.params.tBindRx.toNat) s t ∧
      t.le = { s.le with step := s.le.step + 1#4 } ∧ t.events = advanceTrain as ++ rest := by
  obtain ⟨u, hu, hule, hue⟩ := advanceRun_write he hp haw hstep ha
  obtain ⟨t, ht, htle, hte⟩ := advanceRun_followUp hue (by rw [hule]; exact hp) (by rw [hule])
    (by rw [hule]; exact hstep) (by rw [hule]; exact hb)
  exact ⟨t, hu.trans ht (by rw [hule]), by rw [htle, hule, ← haw], hte⟩

/-- The write steps other than the last, with the read step and the write step after each. -/
theorem exchangeStep_next {step : BitVec 4} (h : step = 1#4 ∨ step = 3#4 ∨ step = 5#4) :
    OddBindStep step ∧ (step + 1#4 = 2#4 ∨ step + 1#4 = 4#4 ∨ step + 1#4 = 6#4) := by
  revert step; decide

/-- An answered exchange takes a write step other than the last to the next write step (42_link_binding.md R192). -/
theorem advanceRun_exchange {s : State} {a b c : Inputs} {as : List Inputs} {rest : List Event}
    (he : s.events = advanceTrain (a :: b :: c :: as) ++ rest) (hp : s.le.phase = .binding)
    (haw : s.le.awaitingWrite = false) (hstep : s.le.step = 1#4 ∨ s.le.step = 3#4 ∨ s.le.step = 5#4)
    (hok : ∀ i ∈ a :: b :: c :: as, i.draws.busy = false ∧ deadlineFires i.nowMs s.le = false) :
    ∃ t : State, AdvanceRun 3 1
        (Config.params.tBindWrite.toNat + Config.params.tBindRx.toNat + Config.params.tBindRead.toNat) s t ∧
      t.le = { s.le with step := s.le.step + 2#4 } ∧ t.events = advanceTrain as ++ rest := by
  simp only [List.forall_mem_cons] at hok
  obtain ⟨⟨-, ha⟩, ⟨-, hb⟩, ⟨hbusy, hc⟩, -⟩ := hok
  obtain ⟨hwrite, hread⟩ := exchangeStep_next hstep
  obtain ⟨u, hu, hule, hue⟩ := advanceRun_send he hp haw hwrite ha hb
  obtain ⟨t, ht, htle, hte⟩ := advanceRun_read hue (by rw [hule]; exact hp) (by rw [hule]; exact haw)
    (by rw [hule]; exact hread) hbusy (by rw [hule]; exact hc)
  exact ⟨t, hu.trans ht (by rw [hule]), by rw [htle, hule, BitVec.add_assoc]; rfl, hte⟩

/-- The last exchange, answered with the sentinel, links (42_link_binding.md R186). -/
theorem advanceRun_resolve {s : State} {a b c : Inputs} {rest : List Event}
    (he : s.events = advanceTrain [a, b, c] ++ rest) (hp : s.le.phase = .binding)
    (haw : s.le.awaitingWrite = false) (hstep : s.le.step = 7#4)
    (hok : ∀ i ∈ [a, b, c], i.draws.busy = false ∧ deadlineFires i.nowMs s.le = false) (hrx : c.draws.rx[1] = 9#8) :
    ∃ t : State, AdvanceRun 3 1
        (Config.params.tBindWrite.toNat + Config.params.tBindRx.toNat + Config.params.tLinkSettle.toNat) s t ∧
      t.le = s.le.enterLinked ∧ t.events = rest := by
  simp only [List.forall_mem_cons] at hok
  obtain ⟨⟨-, ha⟩, ⟨-, hb⟩, ⟨hbusy, hc⟩, -⟩ := hok
  obtain ⟨u, hu, hule, hue⟩ := advanceRun_send he hp haw (hstep ▸ .inr (.inr (.inr rfl))) ha hb
  obtain ⟨t, ht, htle, hte⟩ := advanceRun_link hue (by rw [hule]; exact hp) (by rw [hule]; exact haw)
    (by rw [hule, hstep]; rfl) hbusy hrx (by rw [hule]; exact hc)
  exact ⟨t, hu.trans ht (by rw [hule]), by rw [htle, hule]; rfl, hte⟩

theorem exists_cons_three {α : Type} {l : List α} {n : Nat} (h : l.length = n + 3) :
    ∃ a b c tl, l = a :: b :: c :: tl ∧ tl.length = n := by
  match l, h with
  | a :: b :: c :: tl, h => exact ⟨a, b, c, tl, rfl, by simpa using h⟩

theorem forall_mem_of_cons_three {α : Type} {p : α → Prop} {a b c : α} {l : List α} (h : ∀ i ∈ a :: b :: c :: l, p i) :
    ∀ i ∈ l, p i := by
  simp only [List.forall_mem_cons] at h
  obtain ⟨-, -, -, hl⟩ := h
  exact hl

theorem handshakeDelay_defaults (a b : Byte) (fields : TelemField → FieldPlace) (pol : DeadlinePolicy) :
    handshakeDelay (Config.defaults a b fields pol) = 59500 := by
  simp [handshakeDelay, Config.defaults]

/-- Settles O35: three answered exchanges and the resolution, in a row. -/
theorem answeredHandshakeLinksInTwelve : Obligations.AnsweredHandshakeLinksInTwelve := by
  refine ⟨handshakeDelay_defaults, fun s ins rest hlen he hp hstep haw hok hlast => ?_⟩
  obtain ⟨a1, b1, c1, ins1, rfl, hlen1⟩ := exists_cons_three hlen
  obtain ⟨a2, b2, c2, ins2, rfl, hlen2⟩ := exists_cons_three hlen1
  obtain ⟨a3, b3, c3, ins3, rfl, hlen3⟩ := exists_cons_three hlen2
  obtain ⟨a4, b4, c4, ins4, rfl, hlen4⟩ := exists_cons_three hlen3
  obtain rfl := List.length_eq_zero_iff.1 hlen4
  have hok2 := forall_mem_of_cons_three hok
  have hok3 := forall_mem_of_cons_three hok2
  have hok4 := forall_mem_of_cons_three hok3
  obtain ⟨u1, h1, hle1, he1⟩ := advanceRun_exchange he hp haw (.inl hstep) hok
  rw [hstep] at hle1
  obtain ⟨u2, h2, hle2, he2⟩ := advanceRun_exchange he1 (by rw [hle1]; exact hp) (by rw [hle1]; exact haw)
    (by rw [hle1]; exact .inr (.inl rfl)) (by rw [hle1]; exact hok2)
  rw [hle1] at hle2
  obtain ⟨u3, h3, hle3, he3⟩ := advanceRun_exchange he2 (by rw [hle2]; exact hp) (by rw [hle2]; exact haw)
    (by rw [hle2]; exact .inr (.inr rfl)) (by rw [hle2]; exact hok3)
  rw [hle2] at hle3
  obtain ⟨t, h4, hle4, he4⟩ := advanceRun_resolve he3 (by rw [hle3]; exact hp) (by rw [hle3]; exact haw)
    (by rw [hle3]; rfl) (by rw [hle3]; exact hok4) (hlast c4 rfl)
  have hrun := ((h1.trans h2 (by rw [hle1])).trans h3 (by rw [hle2])).trans h4 (by rw [hle3])
  obtain ⟨out, hlog, hcount, hdelay, -⟩ := hrun.log
  have hout : t.outputsAfter s.log.length = out := by rw [State.outputsAfter, hlog, List.drop_left]
  refine ⟨fun k hk => ?_, t, hrun.run, ?_, ?_, ?_, ?_, ?_, he4, hout ▸ hcount, ?_⟩
  · obtain ⟨u, hu, hphase⟩ := hrun.phase k hk
    exact ⟨u, hu, hphase.trans hp⟩
  · rw [hle4]; rfl
  · rw [hle4]; rfl
  · rw [hle4]; rfl
  · rw [hle4, hle3]; rfl
  · rw [hle4, hle3]; rfl
  · rw [hout, hdelay, handshakeDelay]
    omega

/-- Settles O36: step 1, its follow-up and the restart write nothing but what they undo. -/
theorem silentPeerRestartsWithSameSession : Obligations.SilentPeerRestartsWithSameSession := by
  intro s a b c rest he hp hstep haw hbusy ha hb hc
  obtain ⟨u, hu, hule, hue⟩ := advanceRun_send he hp haw (.inl hstep) ha hb
  obtain ⟨t, ht, htle, hte⟩ := advanceRun_restart hue (by rw [hule]; exact hp) (by rw [hule]; exact haw)
    (by rw [hule, hstep]; exact .inl rfl) hbusy (by rw [hule]; exact hc)
  have hrun := hu.trans ht (by rw [hule])
  refine ⟨t, hrun.run, ?_, hrun.pd, hrun.cfg, hte⟩
  rw [htle, hule, ← hstep, ← haw]

/-! ## A visit to a linked sub-step -/

/-- In Linked, at a given point of the visit to a given sub-step. -/
def LinkedAt (tphase : TPhase) (step : BitVec 4) (le : LinkEngine) : Prop :=
  le.phase = .linked ∧ le.tphase = tphase ∧ le.step = step

section
variable {s : State} {a : Inputs} {as : List Inputs} {rest : List Event} {step : BitVec 4}

theorem advanceRun_transmit (he : s.events = advanceTrain (a :: as) ++ rest) (hs : LinkedAt .transmit step s.le) :
    ∃ t : State, AdvanceRun 1 1 Config.params.tTx.toNat s t ∧ LinkedAt .awaitTransmit step t.le ∧
      t.events = advanceTrain as ++ rest := by
  obtain ⟨hp, ht, hstep⟩ := hs
  obtain ⟨t, hrun, hle, hte⟩ := advanceRun_single (w := 1)
    ((if s.le.step = 1#4 then [.setPower s.cfg.txPower] else []) ++ [.writeFrame _ 16 _]) he
    (by split_ifs <;> rfl)
    ((exec_leAdvance_of_transmit (s := s.fed a (advanceTrain as ++ rest)) hp ht).trans
      (congrArg Host.Outcome.next (linkTransmit_eq_answered ..)))
  exact ⟨t, hrun, by rw [hle]; exact ⟨hp, rfl, hstep⟩, hte⟩

theorem advanceRun_awaitBusy (he : s.events = advanceTrain (a :: as) ++ rest) (hs : LinkedAt .awaitTransmit step s.le)
    (hbusy : a.draws.busy = true) :
    ∃ t : State, AdvanceRun 1 0 Config.params.tAwaitBusy.toNat s t ∧ t.le = s.le ∧
      t.events = advanceTrain as ++ rest := by
  obtain ⟨hp, ht, -⟩ := hs
  exact advanceRun_single [.isBusy] he rfl
    ((advance_of_await (s := s.fed a (advanceTrain as ++ rest)) hp ht).trans
      (congrArg Host.Outcome.next (linkAwait_of_busy hbusy)))

theorem advanceRun_awaitDone (he : s.events = advanceTrain (a :: as) ++ rest) (hs : LinkedAt .awaitTransmit step s.le)
    (hbusy : a.draws.busy = false) :
    ∃ t : State, AdvanceRun 1 0 Config.params.tAwaitDone.toNat s t ∧
      (LinkedAt .pollReceive step t.le ∧ t.le.pollCount = 0#3) ∧ t.events = advanceTrain as ++ rest := by
  obtain ⟨hp, ht, hstep⟩ := hs
  obtain ⟨t, hrun, hle, hte⟩ := advanceRun_single [.isBusy, .strobe .rx] he rfl
    ((advance_of_await (s := s.fed a (advanceTrain as ++ rest)) hp ht).trans
      (congrArg Host.Outcome.next (linkAwait_of_ready hbusy)))
  exact ⟨t, hrun, by rw [hle]; exact ⟨⟨hp, rfl, hstep⟩, rfl⟩, hte⟩

/-- A poll, whatever the driver answers, counts on an engine that differs from the one before in the telemetry buffers
at most. -/
theorem advanceRun_poll (he : s.events = advanceTrain (a :: as) ++ rest) (hs : LinkedAt .pollReceive step s.le) :
    ∃ (t : State) (le : LinkEngine), AdvanceRun 1 0 Config.params.tPoll.toNat s t ∧ LinkedAt .pollReceive step le ∧
      le.pollCount = s.le.pollCount ∧ t.le = le.countPoll ∧ t.events = advanceTrain as ++ rest := by
  obtain ⟨hp, ht, hstep⟩ := hs
  have hexec := advance_of_poll (P := Config.params) (s := s.fed a (advanceTrain as ++ rest)) hp ht
  cases hbusy : a.draws.busy with
  | true =>
    obtain ⟨t, hrun, hle, hte⟩ := advanceRun_single [.isBusy] he rfl
      (hexec.trans (congrArg Host.Outcome.next (linkPoll_of_busy hbusy)))
    exact ⟨t, s.le, hrun, ⟨hp, ht, hstep⟩, rfl, hle, hte⟩
  | false =>
    obtain ⟨t, hrun, hle, hte⟩ := advanceRun_single [.isBusy, .readFrame 16, .strobe .rx] he rfl
      (hexec.trans (congrArg Host.Outcome.next (linkPoll_of_ready hbusy)))
    obtain ⟨x, y, vx, vy, e⟩ := telemetryDecode_frame Config.params a.draws.rx s.le
    exact ⟨t, _, hrun, by rw [State.fed, e]; exact ⟨hp, ht, hstep⟩, by rw [State.fed, e], hle, hte⟩

end

/-- Any number of busy answers leaves the engine waiting (43_link_linked.md R205). -/
theorem advanceRun_busies {busies as : List Inputs} {rest : List Event} {step : BitVec 4} {s : State}
    (he : s.events = advanceTrain (busies ++ as) ++ rest) (hs : LinkedAt .awaitTransmit step s.le)
    (hbusy : ∀ i ∈ busies, i.draws.busy = true) :
    ∃ t : State, AdvanceRun busies.length 0 (Config.params.tAwaitBusy.toNat * busies.length) s t ∧
      LinkedAt .awaitTransmit step t.le ∧ t.events = advanceTrain as ++ rest := by
  induction busies generalizing s with
  | nil => exact ⟨s, .refl s, hs, he⟩
  | cons a busies ih =>
    obtain ⟨ha, hbusy⟩ := List.forall_mem_cons.1 hbusy
    obtain ⟨u, hu, hule, hue⟩ := advanceRun_awaitBusy he hs ha
    obtain ⟨t, ht, htle, hte⟩ := ih hue (hule ▸ hs) hbusy
    have hrun := hu.trans ht (by rw [hule])
    refine ⟨t, ?_, htle, hte⟩
    rw [List.length_cons, Nat.mul_succ, Nat.add_comm busies.length, Nat.add_comm (_ * _)]
    exact hrun

/-- The polls up to the seventh, whatever the driver answers, end the sub-step (43_link_linked.md R206, R207). -/
theorem advanceRun_polls {polls : List Inputs} {rest : List Event} {step : BitVec 4} {s : State}
    (he : s.events = advanceTrain polls ++ rest) (hs : LinkedAt .pollReceive step s.le) (hsome : polls ≠ [])
    (hcount : s.le.pollCount.toNat + polls.length = 7) :
    ∃ t : State, AdvanceRun polls.length 0 (polls.length * Config.params.tPoll.toNat) s t ∧
      LinkedAt .transmit (BitVec.ofNat 4 (step.toNat % 5 + 1)) t.le ∧ t.le.pollCount = 7#3 ∧ t.events = rest := by
  induction polls generalizing s with
  | nil => exact absurd rfl hsome
  | cons a polls ih =>
    rw [List.length_cons] at hcount
    obtain ⟨u, le, hu, ⟨hp, htp, hstep⟩, hn, hule, hue⟩ := advanceRun_poll he hs
    rcases countPoll_cases le with ⟨hlast, e⟩ | ⟨hmore, e⟩ <;> rw [e] at hule
    · rw [hn] at hlast
      obtain rfl : polls = [] := List.length_eq_zero_iff.1 (by omega)
      refine ⟨u, by simpa using hu, by rw [hule, hstep]; exact ⟨hp, rfl, rfl⟩, by rw [hule], hue⟩
    · rw [hn] at hmore hule
      have hnext : (BitVec.ofNat 3 (s.le.pollCount.toNat + 1)).toNat = s.le.pollCount.toNat + 1 := by
        rw [BitVec.toNat_ofNat]
        omega
      have hmoreLeft : polls ≠ [] := by
        rintro rfl
        simp at hcount
        omega
      obtain ⟨t, ht, htle, htcount, hte⟩ := ih hue (by rw [hule]; exact ⟨hp, htp, hstep⟩) hmoreLeft
        (by rw [hule]; show (BitVec.ofNat 3 (s.le.pollCount.toNat + 1)).toNat + polls.length = 7; omega)
      obtain ⟨hsp, -⟩ := hs
      have hrun := hu.trans ht (by rw [hule, hsp]; exact hp)
      refine ⟨t, ?_, htle, htcount, hte⟩
      rw [List.length_cons, Nat.succ_mul, Nat.add_comm polls.length, Nat.add_comm (_ * _)]
      exact hrun

theorem visitDelay_defaults (a b : Byte) (fields : TelemField → FieldPlace) (pol : DeadlinePolicy) (n : Nat) :
    visitDelay (Config.defaults a b fields pol) n = 13000 := by
  simp [visitDelay, Config.defaults]

/-- Settles O37: the transmission, the busy answers, the ready answer and the seven polls, in a row. -/
theorem subStepVisitTakesSevenPolls : Obligations.SubStepVisitTakesSevenPolls := by
  refine ⟨visitDelay_defaults, fun s tx ready busies polls rest hp ht _ _ hbusy hready hpolls he => ?_⟩
  obtain ⟨u1, h1, hs1, he1⟩ := advanceRun_transmit he ⟨hp, ht, rfl⟩
  obtain ⟨u2, h2, hs2, he2⟩ := advanceRun_busies he1 hs1 hbusy
  obtain ⟨u3, h3, ⟨hs3, hcount3⟩, he3⟩ := advanceRun_awaitDone he2 hs2 hready
  have hsome : polls ≠ [] := by rintro rfl; cases hpolls
  obtain ⟨t, h4, ⟨htp, htt, htstep⟩, htcount, hte⟩ := advanceRun_polls he3 hs3 hsome (by rw [hcount3, hpolls]; rfl)
  obtain ⟨hp1, -⟩ := hs1
  obtain ⟨hp2, -⟩ := hs2
  obtain ⟨hp3, -⟩ := hs3
  have hrun := ((h1.trans h2 (hp1.trans hp.symm)).trans h3 (hp2.trans hp.symm)).trans h4 (hp3.trans hp.symm)
  rw [hpolls, show 1 + busies.length + 1 + 7 = busies.length + 9 by omega] at hrun
  obtain ⟨out, hlog, -, hdelay, hwrites⟩ := hrun.log
  have hout : t.outputsAfter s.log.length = out := by rw [State.outputsAfter, hlog, List.drop_left]
  refine ⟨t, hrun.run, htp, htt, ?_, htcount, hte, hout ▸ hdelay, hout ▸ hwrites⟩
  rw [htstep, BitVec.toNat_ofNat]
  omega

end Sys2Proof.Machine
end

section
/-! PROOF of O38 (44_frames.md R233), O39 and O60 (R235, R238, R239) and O43 (R231, R232). A framed payload is the
payload and its checksum; a frame's byte is then `dataByte` or `extByte` at its index, and the lawful offsets, which
keep the fields apart, decide which field stands there. -/
namespace Sys2Proof.Machine

/-! ## Framed payloads -/

theorem framed_toList (P : Params) (p : Payload) : (framed P p).toList = p.toList ++ [P.ck p] := Vector.toList_push

theorem framed_take (P : Params) (p : Payload) : (framed P p).toList.take 15 = p.toList := by
  rw [framed_toList, List.take_left' (Vector.length_toList)]

theorem framed_checksum (P : Params) (p : Payload) : (framed P p)[15] = P.ck (framed P p).pop := by
  rw [framed_last, framed_pop]

/-- Five constants, one by one. -/
theorem toList_vector_five (v : Vector Byte 5) : v.toList = [v[0], v[1], v[2], v[3], v[4]] := by
  match v with
  | ⟨⟨[_, _, _, _, _]⟩, _⟩ => rfl

/-- Settles O38: the payload is written out, but for the constants, which are an array. -/
theorem bindFrameBytes : Obligations.BindFrameBytes := by
  intro P tag ch sid
  refine ⟨?_, framed_checksum P _⟩
  rw [bindFrame, framed_take, toList_vector_five]
  rfl

/-! ## The default checksum (44_frames.md R231, R232) -/

theorem ckDefault_toNat (p : Payload) :
    (Config.ckDefault p).toNat = (256 - (p.toList.map BitVec.toNat).sum % 256) % 256 := by
  rw [Config.ckDefault, BitVec.toNat_ofNat]
  omega

/-- The default checksum completes the sum to a multiple of 256. -/
theorem framed_sum_of_ckDefault {P : Params} (h : P.ck = Config.ckDefault) (p : Payload) :
    ((framed P p).toList.map BitVec.toNat).sum % 256 = 0 := by
  rw [framed_toList, List.map_append, List.sum_append, h, List.map_singleton, List.sum_singleton, ckDefault_toNat]
  omega

/-- A frame that ends in its own checksum is a framed payload. -/
theorem framed_pop_of_checksum {P : Params} {f : Frame} (h : f[15] = P.ck f.pop) : framed P f.pop = f := by
  rw [framed, ← h]
  exact Vector.push_pop_back f

/-- Settles O43: CKV accepts by the byte sum or by the frame's own checksum, and the latter makes the sum 0 as well. -/
theorem defaultChecksumIsTheByteSum : Obligations.DefaultChecksumIsTheByteSum := by
  intro a b fields pol
  refine ⟨framed_sum_of_ckDefault rfl, fun f => ?_⟩
  rw [Params.verify, Bool.or_eq_true, decide_eq_true_iff]
  show Config.ckvDefault f = true ∨ _ ↔ _
  rw [Config.ckvDefault, decide_eq_true_iff]
  refine or_iff_left_of_imp fun hck => ?_
  have hsum := framed_sum_of_ckDefault (P := Config.defaults a b fields pol) rfl f.pop
  rwa [framed_pop_of_checksum hck] at hsum

/-! ## Data and extended frames under the default offsets (44_frames.md R235, R238) -/

theorem payloadOf_toList (f : Nat → Byte) :
    (payloadOf f).toList =
      [f 0, f 1, f 2, f 3] ++ [f 4, f 5, f 6, f 7, f 8, f 9, f 10, f 11, f 12, f 13, f 14] := rfl

section
variable {P : Params} (cmd : CommandSet) (k : Nat) (cfg : ConfigRegs)
  (ho : P.frameOffsets = Config.frameOffsetsDefault)
include ho

theorem dataByte_default_head (hfill : ∀ i : Nat, P.dataFill i = 0x00#8) :
    [dataByte P cmd k 0, dataByte P cmd k 1, dataByte P cmd k 2, dataByte P cmd k 3] =
      [0x20#8, 0x00#8, cmd.thr, 0x00#8] := by
  simp [dataByte, ho, Config.frameOffsetsDefault, Config.modeNormal, hfill]

theorem extByte_default_head :
    [extByte P cmd k cfg 0, extByte P cmd k cfg 1, extByte P cmd k cfg 2, extByte P cmd k cfg 3] =
      [P.modeExt, cfg.vtxFreq.extractLsb' 8 8, cfg.vtxFreq.extractLsb' 0 8, P.extSel] := by
  simp [extByte, ho, Config.frameOffsetsDefault, be16Byte]

theorem dataByte_default_tail (hfill : ∀ i : Nat, P.dataFill i = 0x00#8) :
    [dataByte P cmd k 4, dataByte P cmd k 5, dataByte P cmd k 6, dataByte P cmd k 7, dataByte P cmd k 8,
      dataByte P cmd k 9, dataByte P cmd k 10, dataByte P cmd k 11, dataByte P cmd k 12, dataByte P cmd k 13,
      dataByte P cmd k 14] =
      [if P.invertYaw = true then 255#8 - cmd.yaw else cmd.yaw, 0x00#8,
       if P.invertPitch = true then 255#8 - cmd.pitch else cmd.pitch, 0x00#8,
       if P.invertRoll = true then 255#8 - cmd.roll else cmd.roll, flagsByte P cmd k, P.dataConst,
       P.txid.extractLsb' 24 8, P.txid.extractLsb' 16 8, P.txid.extractLsb' 8 8, P.txid.extractLsb' 0 8] := by
  simp [dataByte, ho, Config.frameOffsetsDefault, hfill, be32Byte, invertWhen]

end

/-- Settles O39, by the kind of frame: the head is the kind's own, the tail is the data frame's. -/
theorem dataFrameBytes : Obligations.DataFrameBytes := by
  intro P cmd k cfg ho hfill
  refine ⟨?_, framed_checksum P _⟩
  rw [dataFrame, framed_take, payloadOf_toList, ← dataByte_default_tail cmd k ho hfill]
  by_cases hext : cfg.extEnable = true ∧ k = 100
  · rw [if_pos hext, if_pos ((isExtended_iff cfg k).2 hext), extByte_default_head cmd k cfg ho]
    simp only [extByte_of_tail, Nat.reduceLeDiff]
  · rw [if_neg hext, if_neg (mt (isExtended_iff cfg k).1 hext), dataByte_default_head cmd k ho hfill]

/-! ## The fields at any lawful offsets -/

/-- A field apart from the four bytes of the transmitter id is none of them. -/
theorem add_ne_of_apart {x t j : Nat} (h : ¬ x = t ∧ ¬ x = t + 1 ∧ ¬ x = t + 2 ∧ ¬ x = t + 3) (hj : j ≤ 3) :
    ¬ t + j = x := by omega

/-- Where no two fields share a byte, each is found at its own offset (44_frames.md R235). -/
theorem dataByte_fields (P : Params) (cmd : CommandSet) (k : Nat) :
    dataByte P cmd k P.frameOffsets.thr = cmd.thr ∧
    dataByte P cmd k P.frameOffsets.yaw = invertWhen P.invertYaw cmd.yaw ∧
    dataByte P cmd k P.frameOffsets.pitch = invertWhen P.invertPitch cmd.pitch ∧
    dataByte P cmd k P.frameOffsets.roll = invertWhen P.invertRoll cmd.roll ∧
    dataByte P cmd k P.frameOffsets.flags = flagsByte P cmd k ∧
    dataByte P cmd k P.frameOffsets.dataConst = P.dataConst ∧
    ∀ j ≤ 3, dataByte P cmd k (P.frameOffsets.txid + j) = be32Byte P.txid j := by
  obtain ⟨hthr, hapart, hbounds, -⟩ := Params.frameOffsets_lawful P
  simp only [FrameOffsets.tail, List.nodup_cons, List.mem_cons, List.not_mem_nil, or_false, not_or] at hapart
  simp only [FrameOffsets.tail, List.forall_mem_cons] at hbounds
  obtain ⟨⟨hyp, hyr, hyf, hyc, hyt⟩, ⟨hpr, hpf, hpc, hpt⟩, ⟨hrf, hrc, hrt⟩, ⟨hfc, hft⟩, hct, -⟩ := hapart
  obtain ⟨hy, hp, hr, hf, hc, ht, -⟩ := hbounds
  refine ⟨?thr, ?yaw, ?pitch, ?roll, ?flags, ?dataConst, fun j hj => ?txid⟩
  case thr => rw [dataByte, if_neg (by omega), if_pos rfl]
  case yaw => rw [dataByte, if_neg (by omega), if_neg (by omega), if_pos rfl]
  case pitch => rw [dataByte, if_neg (by omega), if_neg (by omega), if_neg (Ne.symm hyp), if_pos rfl]
  case roll =>
    rw [dataByte, if_neg (by omega), if_neg (by omega), if_neg (Ne.symm hyr), if_neg (Ne.symm hpr), if_pos rfl]
  case flags =>
    rw [dataByte, if_neg (by omega), if_neg (by omega), if_neg (Ne.symm hyf), if_neg (Ne.symm hpf),
      if_neg (Ne.symm hrf), if_pos rfl]
  case dataConst =>
    rw [dataByte, if_neg (by omega), if_neg (by omega), if_neg (Ne.symm hyc), if_neg (Ne.symm hpc),
      if_neg (Ne.symm hrc), if_neg (Ne.symm hfc), if_pos rfl]
  case txid =>
    rw [dataByte, if_neg (by omega), if_neg (by omega), if_neg (add_ne_of_apart hyt hj),
      if_neg (add_ne_of_apart hpt hj), if_neg (add_ne_of_apart hrt hj), if_neg (add_ne_of_apart hft hj),
      if_neg (add_ne_of_apart hct hj), if_pos ⟨Nat.le_add_right .., Nat.add_le_add_left hj _⟩, Nat.add_sub_cancel_left]

/-- Every other byte is the fill. -/
theorem dataByte_fill (P : Params) (cmd : CommandSet) (k : Nat) {i : Nat} (hi : 1 ≤ i)
    (hnone : i ∉ P.frameOffsets.thr :: P.frameOffsets.tail) : dataByte P cmd k i = P.dataFill i := by
  simp only [FrameOffsets.tail, List.mem_cons, List.not_mem_nil, or_false, not_or] at hnone
  obtain ⟨hthr, hyaw, hpitch, hroll, hflags, hconst, htxid⟩ := hnone
  rw [dataByte, if_neg (by omega), if_neg hthr, if_neg hyaw, if_neg hpitch, if_neg hroll, if_neg hflags, if_neg hconst,
    if_neg (by omega)]

/-- A normal frame's bytes below the checksum. -/
theorem dataFrame_getElem?_of_normal (P : Params) (cmd : CommandSet) {k : Nat} {cfg : ConfigRegs} {i : Nat}
    (hnormal : ¬ (cfg.extEnable = true ∧ k = 100)) (hi : i < 15) :
    (dataFrame P cmd k cfg).toList[i]? = some (dataByte P cmd k i) := by
  rw [Vector.getElem?_toList, Vector.getElem?_eq_getElem (by omega), dataFrame_getElem_of_normal P cmd hnormal hi]

/-- The extended frame's bytes below the checksum (44_frames.md R238, R239). -/
theorem dataFrame_getElem?_of_extended (P : Params) (cmd : CommandSet) {cfg : ConfigRegs} {i : Nat}
    (hext : cfg.extEnable = true) (hi : i < 15) :
    (dataFrame P cmd 100 cfg).toList[i]? = some (extByte P cmd 100 cfg i) := by
  rw [Vector.getElem?_toList, Vector.getElem?_eq_getElem (by omega), dataFrame_getElem P cmd 100 cfg hi,
    if_pos ((isExtended_iff cfg 100).2 ⟨hext, rfl⟩)]

/-- The frequency and the selector at their offsets (44_frames.md R238). -/
theorem extByte_fields (P : Params) (cmd : CommandSet) (k : Nat) (cfg : ConfigRegs) :
    extByte P cmd k cfg P.frameOffsets.vtx = be16Byte cfg.vtxFreq 0 ∧
    extByte P cmd k cfg (P.frameOffsets.vtx + 1) = be16Byte cfg.vtxFreq 1 ∧
    extByte P cmd k cfg P.frameOffsets.sel = P.extSel := by
  rcases Params.frameOffsets_head_cases P with ⟨hvtx, hsel⟩ | ⟨hvtx, hsel⟩ <;> simp [extByte, hvtx, hsel]

theorem dataByte_thr_of_ne (P : Params) (cmd : CommandSet) (k : Nat) (v : Byte) {i : Nat}
    (hi : i ≠ P.frameOffsets.thr) : dataByte P { cmd with thr := v } k i = dataByte P cmd k i := by
  simp only [dataByte, if_neg hi]
  rfl

/-- An extended frame replaces bytes 1 to 3, where the throttle stands, so it does not show it. -/
theorem extByte_thr (P : Params) (cmd : CommandSet) (k : Nat) (cfg : ConfigRegs) (v : Byte) :
    extByte P { cmd with thr := v } k cfg = extByte P cmd k cfg := by
  obtain ⟨hthr, -⟩ := Params.frameOffsets_lawful P
  have hhead := Params.frameOffsets_head_cases P
  funext i
  simp only [extByte]
  split_ifs with h0 h1 h2 h3
  · rfl
  · rfl
  · rfl
  · rfl
  · exact dataByte_thr_of_ne P cmd k v (by omega)

/-- Settles O60: a normal frame by its fields and its fill, an extended one by its head and the normal one's tail; the
offsets are lawful, and any lawful ones are those of some parameters. -/
theorem dataAndExtendedFramesCarryTheirFields : Obligations.DataAndExtendedFramesCarryTheirFields := by
  refine ⟨fun P cmd k cfg hnormal => ?normal, fun P cmd cfg hext => ?extended, fun P => ?offsets, fun o ho => ?reach⟩
  case normal =>
    obtain ⟨hthr, htail, hbounds, -⟩ := Params.frameOffsets_lawful P
    simp only [FrameOffsets.tail, List.forall_mem_cons] at hbounds
    obtain ⟨⟨-, hy⟩, ⟨-, hp⟩, ⟨-, hr⟩, ⟨-, hf⟩, ⟨-, hc⟩, -, -, -, ⟨-, ht⟩, -⟩ := hbounds
    obtain ⟨bthr, byaw, bpitch, broll, bflags, bconst, btxid⟩ := dataByte_fields P cmd k
    have hbyte {i : Nat} (hi : i < 15) := dataFrame_getElem?_of_normal P cmd hnormal hi
    refine ⟨dataFrame_getElem_of_normal P cmd hnormal (by decide), ?_, ?_, ?_, ?_, ?_, ?_, ?_, ?_, ?_, ?_, ?_,
      framed_checksum P _⟩
    · rw [hbyte (by omega), bthr]
    · rw [hbyte (by omega), byaw]; rfl
    · rw [hbyte (by omega), bpitch]; rfl
    · rw [hbyte (by omega), broll]; rfl
    · rw [hbyte (by omega), bflags]
    · rw [hbyte (by omega), bconst]
    · exact (hbyte (by omega)).trans (congrArg some (btxid 0 (by decide)))
    · exact (hbyte (by omega)).trans (congrArg some (btxid 1 (by decide)))
    · exact (hbyte (by omega)).trans (congrArg some (btxid 2 (by decide)))
    · exact (hbyte (by omega)).trans (congrArg some (btxid 3 (by decide)))
    · intro i hlo hhi hnone
      rw [hbyte (by omega), dataByte_fill P cmd k hlo hnone]
  case extended =>
    have hhead := Params.frameOffsets_head_cases P
    obtain ⟨bhigh, blow, bsel⟩ := extByte_fields P cmd 100 cfg
    have hbyte {i : Nat} (hi : i < 15) := dataFrame_getElem?_of_extended P cmd hext hi
    have hkind : isExtended cfg 100 = true := (isExtended_iff cfg 100).2 ⟨hext, rfl⟩
    refine ⟨?_, ?_, ?_, ?_, hhead, fun i hlo hhi => ?_, fun v => ?_, framed_checksum P _⟩
    · rw [dataFrame_getElem P cmd 100 cfg (by decide), if_pos hkind]
      rfl
    · exact (hbyte (by omega)).trans (congrArg some bhigh)
    · exact (hbyte (by omega)).trans (congrArg some blow)
    · exact (hbyte (by omega)).trans (congrArg some bsel)
    · rw [hbyte (by omega), extByte_of_tail P cmd 100 cfg hlo, dataFrame_getElem?_of_normal P cmd (by simp) (by omega)]
    · rw [dataFrame, dataFrame, if_pos hkind, if_pos hkind, extByte_thr]
  case offsets =>
    obtain ⟨hthr, htail, hbounds, -⟩ := Params.frameOffsets_lawful P
    exact ⟨hthr, htail, hbounds⟩
  case reach => exact ⟨{ Config.params with frameOffsetsFree := o }, Params.frameOffsets_of_lawful ho⟩

end Sys2Proof.Machine
end
